-- ==== Sys2Proof/Word.lean ====
section
/-! DEFINITION. The word types of the T1TLV engine (00_scope R9: all quantities are unsigned, bit 0 is the least significant). -/

namespace Sys2Proof

/-- One octet of a buffer, of a frame or of a BER encoding (20_memory R61). -/
abbrev Byte := BitVec 8

/-- A 32-bit register (10_state R21). -/
abbrev Word := BitVec 32

end Sys2Proof
end

