-- ==== Sys2Proof/Config.lean ====
section
/-! DEFINITION. The implementation parameters of 00_scope R4. The OPEN ones (92_eei_decisions section 6) are fields of
`Config`, which every `State` carries and no step changes, so that a statement over all states holds for every choice
(log entry 3). The parameters that 92_eei_decisions fixes are constants (log entry 15). -/

namespace Sys2Proof

/-- `LEN_MAX`: the largest LEN of a T=1 frame (00_scope R4). -/
def lenMax : Nat := 254

/-- `DB_CAP`: octets in the T=1 data buffer (00_scope R4, 10_state R35). -/
def dbCap : Nat := 256

/-- `FB_CAP`: octets in the T=1 frame buffer, and the most octets of an answer the engine keeps (00_scope R4,
43_t1_protocol R190). -/
def fbCap : Nat := 259

/-- Octets in each last-sent store, the longest well-formed frame (20_memory R60). -/
def lsCap : Nat := 258

/-- The parameter `SCODE`: the 6-bit values of the nine S-block codes (30_encoding R100). -/
structure SCode where
  resynchRequest : BitVec 6
  resynchResponse : BitVec 6
  ifsRequest : BitVec 6
  ifsResponse : BitVec 6
  abortRequest : BitVec 6
  abortResponse : BitVec 6
  wtxRequest : BitVec 6
  wtxResponse : BitVec 6
  vppStateErrorResponse : BitVec 6
deriving DecidableEq, Repr

/-- The table of 30_encoding R100. PRESUMED: the spec marks these values as general knowledge (G1); log entry 4;
unsafe for a statement that names one of the numbers. -/
def SCode.standard : SCode where
  resynchRequest := 0x00#6
  resynchResponse := 0x20#6
  ifsRequest := 0x01#6
  ifsResponse := 0x21#6
  abortRequest := 0x02#6
  abortResponse := 0x22#6
  wtxRequest := 0x03#6
  wtxResponse := 0x23#6
  vppStateErrorResponse := 0x24#6

/-- The nine codes as a list, in the order of 30_encoding R100. -/
def SCode.codes (c : SCode) : List (BitVec 6) :=
  [c.resynchRequest, c.resynchResponse, c.ifsRequest, c.ifsResponse, c.abortRequest, c.abortResponse, c.wtxRequest,
    c.wtxResponse, c.vppStateErrorResponse]

/-- `UNKNOWN_REPLY_POLICY`: what internal_transmit does with a reply no arm handles (43_t1_protocol R199). -/
inductive UnknownReplyPolicy where
  | retrySame
  | fail
deriving DecidableEq, Repr

/-- The parameters of 00_scope R4 that a model takes as an argument. -/
structure Config where
  /-- `IFS_DEFAULT`: reset value of IFS and the value T1OPEN proposes. -/
  ifsDefault : BitVec 8
  /-- `RETRY_BUDGET`: retries given to each call of internal_transmit. -/
  retryBudget : Nat
  /-- `OPEN_ATTEMPTS`: attempts of the whole open sequence. -/
  openAttempts : Nat
  /-- `SEND_SEQ_ADVANCE`: whether a successful T1XMIT toggles SSEQ. -/
  sendSeqAdvance : Bool
  /-- `UNKNOWN_REPLY_POLICY`. -/
  unknownReply : UnknownReplyPolicy
  /-- `SCODE`. -/
  scode : SCode
  /-- `TB_CAP`: octets in the TLV byte buffer. -/
  tbCap : Nat
  /-- `NODE_CAP`: nodes in the TLV arena. -/
  nodeCap : Nat
  /-- `VAL_CAP`: total octets of all primitive values in the arena. -/
  valCap : Nat
  /-- `DEPTH_MAX`: greatest depth of a node, a root having depth 1. -/
  depthMax : Nat
  /-- `HADDR_RESET`. -/
  haddrReset : BitVec 3
  /-- `DADDR_RESET`. -/
  daddrReset : BitVec 3
  /-- `BWT_RESET`, in milliseconds. -/
  bwtReset : Word
deriving DecidableEq, Repr

/-- The values of 00_scope R4. DESIGN CHOICE for the OPEN ones: the spec's defaults, log entry 3; unsafe for a
statement about this one configuration only. -/
def Config.standard : Config where
  ifsDefault := 32#8
  retryBudget := 3
  openAttempts := 3
  sendSeqAdvance := true
  unknownReply := .retrySame
  scode := SCode.standard
  tbCap := 4096
  nodeCap := 256
  valCap := 4096
  depthMax := 16
  haddrReset := 0#3
  daddrReset := 0#3
  bwtReset := 0#32

end Sys2Proof
end

