-- ==== Sys2Proof/Syntax.lean ====
section
/-! DEFINITION. The instructions: one constructor per row of `spec/opcode_table.json`.
24 rows are commands, the octet the HOST writes to CMD (30_encoding R80, R81); 11 rows are the PCB octets that a
received frame carries and that select an arm of internal_transmit (30_encoding R95 to R100, 43_t1_protocol R192). -/

namespace Sys2Proof

/-- The two formats of the opcode table: `cmd` octets are written to CMD by the HOST, `pcb` octets arrive in a frame
from the LINE. -/
inductive Format where
  | cmd
  | pcb
deriving DecidableEq, Repr

/-- One constructor per row of the opcode table. A command has no operand field (30_encoding R80). The fields of the
PCB rows are those of the table: `ns` bit 6, `more` bit 5, `ignored` bits 4 to 0 of an I-block; `ignored` bit 5, `nr`
bit 4, `err` bits 3 to 0 of an R-block. -/
inductive Instr where
  | nop
  | srst
  | tagdec
  | tagenc
  | lendec
  | lenenc
  | tlvparse
  | tlvparseat
  | tlvser
  | tlvfind
  | tlvappend
  | tlvnewp
  | tlvnewc
  | tlvsetv
  | tlvget
  | tlvgetv
  | tlvclr
  | t1mki
  | t1mkr
  | t1mks
  | t1parse
  | t1edc
  | t1open
  | t1xmit
  | pcbI (ns more : BitVec 1) (ignored : BitVec 5)
  | pcbR (ignored nr : BitVec 1) (err : BitVec 4)
  | pcbResynchRequest
  | pcbResynchResponse
  | pcbIfsRequest
  | pcbIfsResponse
  | pcbAbortRequest
  | pcbAbortResponse
  | pcbWtxRequest
  | pcbWtxResponse
  | pcbVppStateErrorResponse
deriving DecidableEq, Repr

/-- Where the octet of an instruction is read: CMD, or the PCB of a received frame. -/
def Instr.format : Instr → Format
  | .nop => .cmd
  | .srst => .cmd
  | .tagdec => .cmd
  | .tagenc => .cmd
  | .lendec => .cmd
  | .lenenc => .cmd
  | .tlvparse => .cmd
  | .tlvparseat => .cmd
  | .tlvser => .cmd
  | .tlvfind => .cmd
  | .tlvappend => .cmd
  | .tlvnewp => .cmd
  | .tlvnewc => .cmd
  | .tlvsetv => .cmd
  | .tlvget => .cmd
  | .tlvgetv => .cmd
  | .tlvclr => .cmd
  | .t1mki => .cmd
  | .t1mkr => .cmd
  | .t1mks => .cmd
  | .t1parse => .cmd
  | .t1edc => .cmd
  | .t1open => .cmd
  | .t1xmit => .cmd
  | .pcbI _ _ _ => .pcb
  | .pcbR _ _ _ => .pcb
  | .pcbResynchRequest => .pcb
  | .pcbResynchResponse => .pcb
  | .pcbIfsRequest => .pcb
  | .pcbIfsResponse => .pcb
  | .pcbAbortRequest => .pcb
  | .pcbAbortResponse => .pcb
  | .pcbWtxRequest => .pcb
  | .pcbWtxResponse => .pcb
  | .pcbVppStateErrorResponse => .pcb

end Sys2Proof
end

