-- ==== Sys2Proof/Decode.lean ====
section
/-! DEFINITION. The decoder of the two octet formats of `spec/opcode_table.json`, total on any octets and rejecting by
name, and the encoder. A command code and a PCB octet can be the same number, so each format has a decoder of its own,
used where its octets arrive (log entry 2). -/

namespace Sys2Proof

/-- Why an octet sequence is no instruction. -/
inductive DecodeError where
  /-- There is no octet to decode. -/
  | noOctet
  /-- A CMD code outside 30_encoding R81; the engine answers it with IllegalCommand (44_system R224). -/
  | illegalCommand (code : Byte)
  /-- An S-block PCB whose code is none of the nine; 43_t1_protocol R199 handles the block. -/
  | unknownSCode (code : BitVec 6)
deriving DecidableEq, Repr

/-- The opcode map of 30_encoding R81, row by row. -/
def commandTable : List (Byte × Instr) :=
  [(0x00#8, .nop), (0x01#8, .srst),
   (0x10#8, .tagdec), (0x11#8, .tagenc), (0x12#8, .lendec), (0x13#8, .lenenc),
   (0x20#8, .tlvparse), (0x21#8, .tlvparseat), (0x22#8, .tlvser), (0x23#8, .tlvfind), (0x24#8, .tlvappend),
   (0x25#8, .tlvnewp), (0x26#8, .tlvnewc), (0x27#8, .tlvsetv), (0x28#8, .tlvget), (0x29#8, .tlvgetv),
   (0x2A#8, .tlvclr),
   (0x30#8, .t1mki), (0x31#8, .t1mkr), (0x32#8, .t1mks), (0x33#8, .t1parse), (0x34#8, .t1edc),
   (0x40#8, .t1open), (0x41#8, .t1xmit)]

/-- The command a code written to CMD names; every other code is illegal (30_encoding R105). -/
def decodeCommand (c : Byte) : Except DecodeError Instr :=
  match commandTable.lookup c with
  | some i => .ok i
  | none => .error (.illegalCommand c)

/-- The S-block code table, in the order of 30_encoding R100. -/
def decodeSCode (sc : SCode) (code : BitVec 6) : Except DecodeError Instr :=
  if code = sc.resynchRequest then .ok .pcbResynchRequest
  else if code = sc.resynchResponse then .ok .pcbResynchResponse
  else if code = sc.ifsRequest then .ok .pcbIfsRequest
  else if code = sc.ifsResponse then .ok .pcbIfsResponse
  else if code = sc.abortRequest then .ok .pcbAbortRequest
  else if code = sc.abortResponse then .ok .pcbAbortResponse
  else if code = sc.wtxRequest then .ok .pcbWtxRequest
  else if code = sc.wtxResponse then .ok .pcbWtxResponse
  else if code = sc.vppStateErrorResponse then .ok .pcbVppStateErrorResponse
  else .error (.unknownSCode code)

/-- A PCB octet (30_encoding R95 to R98): bit 7 clear is an I-block, bits 7-6 = 10 an R-block, 11 an S-block. -/
def decodePcb (sc : SCode) (p : Byte) : Except DecodeError Instr :=
  if p.extractLsb' 7 1 = 0#1 then
    .ok (.pcbI (p.extractLsb' 6 1) (p.extractLsb' 5 1) (p.extractLsb' 0 5))
  else if p.extractLsb' 6 1 = 0#1 then
    .ok (.pcbR (p.extractLsb' 5 1) (p.extractLsb' 4 1) (p.extractLsb' 0 4))
  else decodeSCode sc (p.extractLsb' 0 6)

/-- One octet of the given format. -/
def decodeOctet (sc : SCode) : Format → Byte → Except DecodeError Instr
  | .cmd, c => decodeCommand c
  | .pcb, p => decodePcb sc p

/-- Read one instruction from the front of an octet sequence, with the octets left over (30_encoding R106: a command
word is always 8 bits). -/
def decode (sc : SCode) (f : Format) : List Byte → Except DecodeError (Instr × List Byte)
  | [] => .error .noOctet
  | b :: rest =>
    match decodeOctet sc f b with
    | .ok i => .ok (i, rest)
    | .error e => .error e

/-- The PCB octet of an I-block: bit 7 clear, `ns` bit 6, `more` bit 5, bits 4 to 0 (30_encoding R96). -/
def pcbOctetI (ns more : BitVec 1) (ignored : BitVec 5) : Byte := 0#1 ++ ns ++ more ++ ignored

/-- The PCB octet of an R-block: bits 7-6 = 10, bit 5, `nr` bit 4, `err` bits 3 to 0 (30_encoding R97). -/
def pcbOctetR (ignored nr : BitVec 1) (err : BitVec 4) : Byte := 2#2 ++ ignored ++ nr ++ err

/-- `pcb_s(code) = 0xC0 | code` (30_encoding R98). -/
def pcbOctetS (code : BitVec 6) : Byte := 3#2 ++ code

/-- The octet of an instruction: the code of 30_encoding R81, or the PCB of 30_encoding R96 to R98. -/
def encodeOctet (sc : SCode) : Instr → Byte
  | .nop => 0x00#8
  | .srst => 0x01#8
  | .tagdec => 0x10#8
  | .tagenc => 0x11#8
  | .lendec => 0x12#8
  | .lenenc => 0x13#8
  | .tlvparse => 0x20#8
  | .tlvparseat => 0x21#8
  | .tlvser => 0x22#8
  | .tlvfind => 0x23#8
  | .tlvappend => 0x24#8
  | .tlvnewp => 0x25#8
  | .tlvnewc => 0x26#8
  | .tlvsetv => 0x27#8
  | .tlvget => 0x28#8
  | .tlvgetv => 0x29#8
  | .tlvclr => 0x2A#8
  | .t1mki => 0x30#8
  | .t1mkr => 0x31#8
  | .t1mks => 0x32#8
  | .t1parse => 0x33#8
  | .t1edc => 0x34#8
  | .t1open => 0x40#8
  | .t1xmit => 0x41#8
  | .pcbI ns more ignored => pcbOctetI ns more ignored
  | .pcbR ignored nr err => pcbOctetR ignored nr err
  | .pcbResynchRequest => pcbOctetS sc.resynchRequest
  | .pcbResynchResponse => pcbOctetS sc.resynchResponse
  | .pcbIfsRequest => pcbOctetS sc.ifsRequest
  | .pcbIfsResponse => pcbOctetS sc.ifsResponse
  | .pcbAbortRequest => pcbOctetS sc.abortRequest
  | .pcbAbortResponse => pcbOctetS sc.abortResponse
  | .pcbWtxRequest => pcbOctetS sc.wtxRequest
  | .pcbWtxResponse => pcbOctetS sc.wtxResponse
  | .pcbVppStateErrorResponse => pcbOctetS sc.vppStateErrorResponse

/-- The octets of an instruction: always one (30_encoding R80, R106). -/
def encode (sc : SCode) (i : Instr) : List Byte := [encodeOctet sc i]

/-- The octet of a table word: the first eight of its bits. -/
def tableOctet (w : Nat) : Byte := BitVec.ofNat 8 w

/-- The octet `b` read as a row of the opcode table: a command where 30_encoding R81 has the code, else a PCB octet
under the table `SCode.standard`. DESIGN CHOICE: the two formats overlap below 0x80, and the 24 exact rows win (log
entry 2); unsafe only for a reader who takes it for the decoder of one format. -/
def decodeTableOctet (b : Byte) : Option Instr :=
  match decodeCommand b with
  | .ok i => some i
  | .error _ => (decodePcb SCode.standard b).toOption

/-- The instruction the decoder reads from the table word `w` of `nbits` bits; no octet, no instruction. -/
def decodeTableWord (nbits w : Nat) : Option Instr :=
  if nbits < 8 then none else decodeTableOctet (tableOctet w)

end Sys2Proof
end

