-- ==== Sys2Proof/Machine/State.lean ====
section
/-! DEFINITION. The state of one T1TLV engine as plain data: every register, buffer and store of 10_state R20, the node
arena, the working storage of a running T=1 command (10_state R46), and three fields of the model's own (`cfg`,
`inputs`, `hostData`). -/

namespace Sys2Proof.Machine

/-- Why the machine stops. The spec gives it no way to stop: every error is a NEXT state (60_exceptions R236, R238), and
a disallowed HOST access is ignored (20_memory R67). So there is no fault (log entry 18; safe). -/
inductive Fault where
deriving DecidableEq, Repr

/-- Why an instruction has no meaning. -/
inductive Refusal where
  /-- Raised by an arm of `exec` whose instruction has no meaning yet; safe, since nothing is claimed of it. No arm
  raises it in this model. -/
  | notModelled (mnemonic : String)
deriving DecidableEq, Repr

/-- The typed errors of 60_exceptions R231. -/
inductive Err where
  | malformedTag
  | malformedTlv
  | lengthMismatch
  | edcError
  | tooManyRetries
  | initFailed
  | transportError
  | resendSlotEmpty
  | unexpectedBlock
  | payloadTooLarge
  | notImplemented
  | notConstructed
  | notPrimitive
  | badNode
  | badOperand
  | arenaFull
  | bufferOverflow
  | depthExceeded
  | illegalCommand
deriving DecidableEq, Repr

/-- A byte space as the list of its octets that differ from `Memory.unlisted`, addresses strictly rising. -/
abbrev Memory := List Host.Cell

/-- What an address that is not listed reads as: every buffer octet is 0x00 after reset (10_state R47; log entry 20). -/
def Memory.unlisted : Byte := 0x00#8

/-- The one canonical form: addresses strictly rising, no entry equal to what an unlisted address reads as. -/
abbrev Memory.wf (m : Memory) : Prop :=
  m.Pairwise (fun c d => c.1 < d.1) ∧ ∀ c ∈ m, c.2 ≠ Memory.unlisted

/-- The byte spaces of 20_memory R60. -/
inductive Space where
  | tb
  | db
  | fb
  | ls0
  | ls1
deriving DecidableEq, Repr

/-- A tag (30_encoding R82): number below 2^28, class 0 to 3, constructed flag. -/
structure Tag where
  number : BitVec 28
  cls : BitVec 2
  constructed : Bool
deriving DecidableEq, Repr

/-- The body of a node (10_state R37): the value octets, or the ids of the children in order. -/
inductive Body where
  | prim (value : List Byte)
  | cons (children : List Nat)
deriving DecidableEq, Repr

/-- A node record (10_state R37). `length` is a natural: 00_scope R5 excludes a length of 2^32 or more (log entry 11).
`parent` is `none` for a root. -/
structure Node where
  tag : Tag
  length : Nat
  body : Body
  parent : Option Nat
deriving DecidableEq, Repr

/-- What the LINE gives back for one `exchange` call (43_t1_protocol R190): any octet sequence, or a failure. -/
inductive Answer where
  | ok (frame : List Byte)
  | fail
deriving DecidableEq, Repr

/-- The four HOST accesses of 20_memory R65. -/
inductive Access where
  | readReg (n : Nat)
  | writeReg (n : Nat) (v : Word)
  | readByte (sp : Space) (off : Nat)
  | writeByte (sp : Space) (off : Nat) (b : Byte)
deriving DecidableEq, Repr

/-- One event of the environment: a HOST access, an answer of the LINE, the hardware reset input (70_reset R260). -/
inductive Input where
  | host (a : Access)
  | line (a : Answer)
  | hardReset
deriving DecidableEq, Repr

/-- The two halves of an attempt of T1OPEN (43_t1_protocol R200). -/
inductive Phase where
  | resynch
  | ifs
deriving DecidableEq, Repr

/-- The T=1 command that is running, with the attempt counter of T1OPEN (10_state R46). -/
inductive Job where
  | xmit
  | opening (attempt : Nat) (phase : Phase)
deriving DecidableEq, Repr

/-- The working storage of a T=1 command that waits for an answer (10_state R46): the retry counter of the current
level of internal_transmit, its outbound frame, and the raw octets last received. -/
structure Work where
  job : Job
  retries : Nat
  out : List Byte
  rx : List Byte
deriving DecidableEq, Repr

/-- The machine. The registers carry the numbers of 10_state R21. -/
structure State where
  /-- The model's own: the parameters of 00_scope R4 (log entry 3). -/
  cfg : Config
  /-- Register 0, CMD. -/
  cmd : BitVec 8
  /-- Register 1, STATUS (10_state R24). -/
  status : Word
  /-- Register 2, ERR. -/
  err : BitVec 8
  /-- Register 3, SUBERR. -/
  subErr : BitVec 8
  /-- Register 4. -/
  a0 : Word
  /-- Register 5. -/
  a1 : Word
  /-- Register 6. -/
  a2 : Word
  /-- Register 7. -/
  a3 : Word
  /-- Register 8. -/
  r0 : Word
  /-- Register 9. -/
  r1 : Word
  /-- Register 10. -/
  r2 : Word
  /-- Register 11. -/
  r3 : Word
  /-- Register 12, TLEN. -/
  tlen : Word
  /-- Register 13, NCNT. -/
  ncnt : Word
  /-- Register 14, VUSED. -/
  vused : Word
  /-- Register 15, DLEN. -/
  dlen : BitVec 16
  /-- Register 16, FLEN. -/
  flen : BitVec 16
  /-- Register 17, EDCMODE: 0 LRC, 1 CRC. -/
  edcMode : BitVec 1
  /-- Register 18, HADDR. -/
  haddr : BitVec 3
  /-- Register 19, DADDR. -/
  daddr : BitVec 3
  /-- Register 20, BWT. -/
  bwt : Word
  /-- Register 21, SSEQ. -/
  sseq : BitVec 1
  /-- Register 22, RSEQ. -/
  rseq : BitVec 1
  /-- Register 23, IFS. -/
  ifs : BitVec 8
  /-- Register 24, LS0LEN. -/
  ls0len : BitVec 16
  /-- Register 25, LS1LEN. -/
  ls1len : BitVec 16
  /-- Register 26, XCNT. -/
  xcnt : Word
  /-- The TLV byte buffer. -/
  tb : Memory
  /-- The T=1 data buffer. -/
  db : Memory
  /-- The T=1 frame buffer. -/
  fb : Memory
  /-- Last-sent store 0. -/
  ls0 : Memory
  /-- Last-sent store 1. -/
  ls1 : Memory
  /-- The TLV node arena; the id of a node is its position (10_state R38). -/
  nodes : List Node
  /-- Working storage; `none` unless a T=1 command waits for an answer. -/
  work : Option Work
  /-- The model's own: the events to come, first one first (log entry 1). -/
  inputs : List Input
  /-- The model's own: what the last HOST read returned (log entry 9). -/
  hostData : Word
deriving DecidableEq, Repr

/-- The state after the hardware reset of an engine with the parameters `c` (10_state R47, 70_reset R260). -/
def State.resetWith (c : Config) : State where
  cfg := c
  cmd := 0
  status := 0
  err := 0
  subErr := 0
  a0 := 0
  a1 := 0
  a2 := 0
  a3 := 0
  r0 := 0
  r1 := 0
  r2 := 0
  r3 := 0
  tlen := 0
  ncnt := 0
  vused := 0
  dlen := 0
  flen := 0
  edcMode := 0
  haddr := c.haddrReset
  daddr := c.daddrReset
  bwt := c.bwtReset
  sseq := 0
  rseq := 0
  ifs := c.ifsDefault
  ls0len := 0
  ls1len := 0
  xcnt := 0
  tb := []
  db := []
  fb := []
  ls0 := []
  ls1 := []
  nodes := []
  work := none
  inputs := []
  hostData := 0

/-- The machine right after the hardware reset, with the parameter values of 00_scope R4 and no event in store
(DESIGN CHOICE for the model's own fields: log entries 3, 9, 10). -/
def State.reset : State := State.resetWith Config.standard

end Sys2Proof.Machine
end

