-- ==== Sys2Proof/Machine/Flags.lean ====
section
/-! DEFINITION. The three flags of STATUS (10_state R24) and the error codes and kinds (60_exceptions R231, R232). There
is no other flag (10_state R23). -/

namespace Sys2Proof.Machine

/-- STATUS while a command runs: BUSY alone (44_system R220). -/
def statusBusy : Word := 1#32

/-- STATUS after a command that ended without error: DONE alone (44_system R220). -/
def statusDone : Word := 2#32

/-- STATUS after a command that ended with an error: ERRF alone (60_exceptions R236). -/
def statusErrf : Word := 4#32

/-- STATUS[0], BUSY (10_state R24). -/
def State.busy (s : State) : Bool := s.status.getLsbD 0

/-- STATUS[1], DONE (10_state R24). -/
def State.done (s : State) : Bool := s.status.getLsbD 1

/-- STATUS[2], ERRF (10_state R24). -/
def State.errf (s : State) : Bool := s.status.getLsbD 2

/-- The code an error leaves in ERR or SUBERR (60_exceptions R231). -/
def Err.code : Err → BitVec 8
  | .malformedTag => 0x10#8
  | .malformedTlv => 0x11#8
  | .lengthMismatch => 0x12#8
  | .edcError => 0x20#8
  | .tooManyRetries => 0x21#8
  | .initFailed => 0x22#8
  | .transportError => 0x23#8
  | .resendSlotEmpty => 0x24#8
  | .unexpectedBlock => 0x25#8
  | .payloadTooLarge => 0x40#8
  | .notImplemented => 0x41#8
  | .notConstructed => 0x42#8
  | .notPrimitive => 0x43#8
  | .badNode => 0x44#8
  | .badOperand => 0x45#8
  | .arenaFull => 0x46#8
  | .bufferOverflow => 0x47#8
  | .depthExceeded => 0x48#8
  | .illegalCommand => 0x4F#8

/-- The kind of an error code, `ERR[7:4]`: 1 malformed input, 2 transport, 3 security (no member), 4 capability or
configuration (60_exceptions R232). -/
def errKind (code : BitVec 8) : BitVec 4 := code.extractLsb' 4 4

end Sys2Proof.Machine
end

