-- ==== Sys2Proof/Machine/Ops.lean ====
section
/-! DEFINITION. The named operations over memory and registers, the start of a command, its two ends (without error and
by `raise`), and the output convention of the encoders. -/

namespace Sys2Proof.Machine

/-- One octet of a byte space; an address that is not listed reads as `Memory.unlisted`. -/
def Memory.read : Memory → Nat → Byte
  | [], _ => Memory.unlisted
  | (k, v) :: m, a => if k = a then v else Memory.read m a

/-- Write one octet, keeping the canonical form: writing what an unlisted address reads as removes the entry. -/
def Memory.write : Memory → Nat → Byte → Memory
  | [], a, b => if b = Memory.unlisted then [] else [(a, b)]
  | (k, v) :: m, a, b =>
    if a < k then (if b = Memory.unlisted then (k, v) :: m else (a, b) :: (k, v) :: m)
    else if a = k then (if b = Memory.unlisted then m else (a, b) :: m)
    else (k, v) :: Memory.write m a b

/-- `MemRead(S, a, n)` of 00_scope R10. -/
def Memory.readRange (m : Memory) (a n : Nat) : List Byte := (List.range n).map fun i => m.read (a + i)

/-- `MemWrite(S, a, n, v)` of 00_scope R10, `n` being the number of octets of `v`. -/
def Memory.writeRange : Memory → Nat → List Byte → Memory
  | m, _, [] => m
  | m, a, b :: bs => Memory.writeRange (m.write a b) (a + 1) bs

/-- The size of a byte space (20_memory R60). -/
def State.spaceSize (s : State) : Space → Nat
  | .tb => s.cfg.tbCap
  | .db => dbCap
  | .fb => fbCap
  | .ls0 => lsCap
  | .ls1 => lsCap

/-- The contents of a byte space. -/
def State.space (s : State) : Space → Memory
  | .tb => s.tb
  | .db => s.db
  | .fb => s.fb
  | .ls0 => s.ls0
  | .ls1 => s.ls1

/-- `TB[0..TLEN)`, the valid octets of TB (10_state R34). -/
def State.tbValid (s : State) : List Byte := s.tb.readRange 0 s.tlen.toNat

/-- The octets a decoder sees that starts at offset `o` and reads nothing at or beyond TLEN (30_encoding R85, R87);
none when `o` is at or beyond TLEN. -/
def State.tbFrom (s : State) (o : Nat) : List Byte := s.tbValid.drop o

/-- The offset that leaves the octets `rest` of `TB[0..TLEN)` unread. -/
def State.tbOffset (s : State) (rest : List Byte) : Word := BitVec.ofNat 32 (s.tlen.toNat - rest.length)

/-- `DB[0..DLEN)` (10_state R35). -/
def State.dbData (s : State) : List Byte := s.db.readRange 0 s.dlen.toNat

/-- `FB[0..FLEN)` (10_state R36). -/
def State.fbFrame (s : State) : List Byte := s.fb.readRange 0 s.flen.toNat

/-- The octets held in the last-sent slot `p`, `LSp[0..LSpLEN)`; none when the slot is empty (10_state R29). -/
def State.slot (s : State) (p : BitVec 1) : List Byte :=
  if p = 0#1 then s.ls0.readRange 0 s.ls0len.toNat else s.ls1.readRange 0 s.ls1len.toNat

/-- `LSpLEN` (10_state R29). -/
def State.slotLen (s : State) (p : BitVec 1) : BitVec 16 := if p = 0#1 then s.ls0len else s.ls1len

/-- Store a frame in the last-sent slot `p` (43_t1_protocol R196, R202). -/
def State.storeSlot (s : State) (p : BitVec 1) (raw : List Byte) : State :=
  if p = 0#1 then { s with ls0 := s.ls0.writeRange 0 raw, ls0len := BitVec.ofNat 16 raw.length }
  else { s with ls1 := s.ls1.writeRange 0 raw, ls1len := BitVec.ofNat 16 raw.length }

/-- Store a data field in DB and its length in DLEN (42_t1_block_unit R175, 43_t1_protocol R202). -/
def State.storeData (s : State) (data : List Byte) : State :=
  { s with db := s.db.writeRange 0 data, dlen := BitVec.ofNat 16 data.length }

/-- Store a frame in FB and its length in FLEN (42_t1_block_unit R172 to R174). -/
def State.storeFrame (s : State) (raw : List Byte) : State :=
  { s with fb := s.fb.writeRange 0 raw, flen := BitVec.ofNat 16 raw.length }

/-- The start of the command with code `c`: CMD takes the code, BUSY is set, DONE, ERRF, ERR and SUBERR are cleared
(44_system R220); the meanings of the commands are given on the state it leaves (log entry 19). It is also the only
"return" from an error: ERR, SUBERR and ERRF keep their values until here (60_exceptions R238). -/
def State.start (s : State) (c : BitVec 8) : State :=
  { s with cmd := c, status := statusBusy, err := 0#8, subErr := 0#8 }

/-- The end of a command without error (44_system R220). -/
def State.finish (s : State) : State := { s with status := statusDone }

/-- Error entry with a sub-code, `raise E(sub)` (60_exceptions R236, 00_scope R10): ERR, SUBERR and STATUS are written,
nothing else is saved anywhere. -/
def State.raiseSub (s : State) (e : Err) (sub : BitVec 8) : State :=
  { s with err := e.code, subErr := sub, status := statusErrf }

/-- Error entry, `raise E` (60_exceptions R236). -/
def State.raise (s : State) (e : Err) : State := s.raiseSub e 0#8

/-- The end of a transactional command: its result, or the error on the state it began in (60_exceptions R235). -/
def State.complete (s : State) : Except Err State → State
  | .ok t => t.finish
  | .error e => s.raise e

/-- Every piece of architectural state at its reset value (10_state R47, 70_reset R260), the engine's parameters and the
environment's events kept (log entry 14). -/
def State.resetArch (s : State) : State :=
  { State.resetWith s.cfg with inputs := s.inputs, hostData := s.hostData }

/-- The output convention of the encoders (40_tag_len_unit R120): append the octets at TLEN, or BufferOverflow; R0 takes
their number. -/
def State.emit (s : State) (bs : List Byte) : Except Err State :=
  if s.tlen.toNat + bs.length > s.cfg.tbCap then .error .bufferOverflow
  else .ok { s with
    tb := s.tb.writeRange s.tlen.toNat bs
    tlen := BitVec.ofNat 32 (s.tlen.toNat + bs.length)
    r0 := BitVec.ofNat 32 bs.length }

end Sys2Proof.Machine
end

