-- ==== Sys2Proof/Machine/Operands.lean ====
section
/-! DEFINITION. The operand and result forms: TagWord, node id, address word, header word (30_encoding R82,
42_t1_block_unit R170, R175). All operands are in registers (30_encoding R80). -/

namespace Sys2Proof.Machine

/-- `NONE`, the word that names no node (00_scope R12). -/
def noneWord : Word := 0xFFFFFFFF#32

/-- The wildcard flag W of a TagWord, bit 31 (30_encoding R82). -/
def wildcard (w : Word) : Bool := w.getLsbD 31

/-- The constructed flag of a TagWord, bit 30 (30_encoding R82). -/
def wordConstructed (w : Word) : Bool := w.getLsbD 30

/-- The Tag a TagWord holds: `number` bits 27 to 0, `class` bits 29 to 28, `constructed` bit 30 (30_encoding R82). -/
def tagOfWord (w : Word) : Tag where
  number := w.extractLsb' 0 28
  cls := w.extractLsb' 28 2
  constructed := wordConstructed w

/-- The TagWord of a Tag, with W = 0 (30_encoding R82). -/
def wordOfTag (t : Tag) : Word := 0#1 ++ BitVec.ofBool t.constructed ++ t.cls ++ t.number

/-- The word that stands for a node id or for no node (41_tlv_unit R153). -/
def wordOfId : Option Nat → Word
  | some x => BitVec.ofNat 32 x
  | none => noneWord

/-- The source address of an address word, `A0[2:0]` (42_t1_block_unit R170). -/
def addrSrc (w : Word) : BitVec 3 := w.extractLsb' 0 3

/-- The destination address of an address word, `A0[6:4]` (42_t1_block_unit R170). -/
def addrDst (w : Word) : BitVec 3 := w.extractLsb' 4 3

/-- The header word `NAD | (PCB << 8) | (LEN << 16) | (EDC << 24)` (42_t1_block_unit R170). -/
def headerWord (nad pcb len edc : Byte) : Word := edc ++ len ++ pcb ++ nad

/-- The address and type word `src | (dst << 4) | (type << 8)` (42_t1_block_unit R175). -/
def addressWord (src dst : BitVec 3) (type : BitVec 2) : Word := 0#22 ++ type ++ 0#1 ++ dst ++ 0#1 ++ src

end Sys2Proof.Machine
end

