-- ==== Sys2Proof/Machine/Frame.lean ====
section
/-! DEFINITION. T=1 frames: NAD, the LRC, block types, the common tail of the factory and the parser (30_encoding R91 to
R104). -/

namespace Sys2Proof.Machine

/-- The field view of a frame (30_encoding R91). -/
structure Block where
  nad : Byte
  pcb : Byte
  len : Byte
  data : List Byte
  edc : Byte
deriving DecidableEq, Repr

/-- `nad(src, dst)` (30_encoding R92). PRESUMED: source in bits 2-0, destination in bits 6-4 (G2; log entry 5; unsafe). -/
def nad (src dst : BitVec 3) : Byte := 0#1 ++ dst ++ 0#1 ++ src

/-- The source address in a NAD, bits 2 to 0 (30_encoding R92). -/
def nadSrc (n : Byte) : BitVec 3 := n.extractLsb' 0 3

/-- The destination address in a NAD, bits 6 to 4 (30_encoding R92). -/
def nadDst (n : Byte) : BitVec 3 := n.extractLsb' 4 3

/-- `lrc(s)`: the exclusive or of all octets (30_encoding R94). -/
def lrc : List Byte → Byte
  | [] => 0x00#8
  | b :: bs => b ^^^ lrc bs

/-- The three block types, derived from the PCB (30_encoding R95). -/
inductive BlockType where
  | I
  | R
  | S
deriving DecidableEq, Repr

/-- `block_type(pcb)` (30_encoding R95). -/
def blockType (pcb : Byte) : BlockType :=
  if pcb.getLsbD 7 then (if pcb.getLsbD 6 then .S else .R) else .I

/-- The type field of T1PARSE's R1: 0, 2 or 3 (42_t1_block_unit R175). -/
def BlockType.code : BlockType → BitVec 2
  | .I => 0#2
  | .R => 2#2
  | .S => 3#2

/-- `pcb_i(ns) = ns << 6` (30_encoding R96). -/
def pcbI (ns : BitVec 1) : Byte := pcbOctetI ns 0#1 0#5

/-- `pcb_r(nr, err) = 0x80 | (nr << 4) | err` (30_encoding R97). -/
def pcbR (nr : BitVec 1) (err : BitVec 4) : Byte := pcbOctetR 0#1 nr err

/-- `pcb_s(code) = 0xC0 | code` (30_encoding R98). -/
def pcbS (code : BitVec 6) : Byte := pcbOctetS code

/-- The S-block code of a PCB, bits 5 to 0 (30_encoding R98). -/
def pcbSCode (pcb : Byte) : BitVec 6 := pcb.extractLsb' 0 6

/-- `frame_fields` (30_encoding R93), with no check of any kind; an octet that is not there reads as 0. -/
def frameFields (raw : List Byte) : Block where
  nad := raw.getD 0 0#8
  pcb := raw.getD 1 0#8
  len := raw.getD 2 0#8
  data := (raw.drop 3).dropLast
  edc := raw.getLastD 0#8

/-- The header word of a block (42_t1_block_unit R170). -/
def Block.header (b : Block) : Word := headerWord b.nad b.pcb b.len b.edc

/-- The octets of a frame before its EDC (30_encoding R102). -/
def frameHead (src dst : BitVec 3) (pcb : Byte) (data : List Byte) : List Byte :=
  nad src dst :: pcb :: BitVec.ofNat 8 data.length :: data

/-- `mk_frame` (30_encoding R102): the mode test, the size test, then the frame with its EDC. -/
def mkFrame (mode : BitVec 1) (src dst : BitVec 3) (pcb : Byte) (data : List Byte) : Except Err (List Byte) :=
  if mode = 1#1 then .error .notImplemented
  else if data.length > lenMax then .error .payloadTooLarge
  else .ok (frameHead src dst pcb data ++ [lrc (frameHead src dst pcb data)])

/-- `t1_parse` (30_encoding R103): mode, then size, then EDC; no check looks at the PCB. -/
def t1Parse (mode : BitVec 1) (raw : List Byte) : Except Err Block :=
  if mode = 1#1 then .error .notImplemented
  else if raw.length < 4 then .error .lengthMismatch
  else
    let l := raw.getD 2 0#8
    if l = 0xFF#8 then .error .lengthMismatch
    else if raw.length ≠ l.toNat + 4 then .error .lengthMismatch
    else if lrc (raw.take (l.toNat + 3)) ≠ raw.getD (l.toNat + 3) 0#8 then .error .edcError
    else .ok {
      nad := raw.getD 0 0#8
      pcb := raw.getD 1 0#8
      len := l
      data := (raw.drop 3).take l.toNat
      edc := raw.getD (l.toNat + 3) 0#8 }

/-- The IFS octet (30_encoding R104): the 7 low bits, plus 0x80 when the high bit is set. -/
def ifsOfOctet (b : Byte) : BitVec 8 :=
  (b.extractLsb' 0 7).setWidth 8 + (if b.getLsbD 7 then 0x80#8 else 0x00#8)

end Sys2Proof.Machine
end

