-- ==== Sys2Proof/Machine/Line.lean ====
section
/-! DEFINITION. The protocol engine between two `exchange` calls: internal_transmit as a machine that waits in
`State.work` for an answer of the LINE, one definition per arm (43_t1_protocol R190 to R199, R206 to R208), and what its
caller, T1OPEN or T1XMIT, does with the block it returns (R200 to R204). -/

namespace Sys2Proof.Machine

/-- `exchange(out, BWT)` is called at a level with `r` retries left (43_t1_protocol R190, R191): XCNT counts the call and
the command waits, BUSY, until the LINE answers (log entry 13). -/
def State.callExchange (s : State) (job : Job) (r : Nat) (out : List Byte) : State :=
  { s with xcnt := s.xcnt + 1, status := statusBusy, work := some ⟨job, r, out, []⟩ }

/-- What the LINE is being handed: the outbound frame and BWT, while a command waits (43_t1_protocol R190). -/
def State.lineOut (s : State) : Option (List Byte × Word) :=
  match s.work with
  | some w => some (w.out, s.bwt)
  | none => none

/-- A T=1 command ends with an error: its working storage is gone and every session write made before stays
(43_t1_protocol R204, 10_state R46). -/
def State.abortWith (s : State) (e : Err) (sub : BitVec 8) : State := ({ s with work := none }).raiseSub e sub

/-- The RESYNCH_REQUEST frame of T1OPEN (43_t1_protocol R200, R206). -/
def State.resynchFrame (s : State) : List Byte :=
  let head := frameHead s.haddr s.daddr (pcbS s.cfg.scode.resynchRequest) []
  head ++ [lrc head]

/-- The IFS_REQUEST frame of T1OPEN, proposing IFS_DEFAULT (43_t1_protocol R200, R206). -/
def State.ifsFrame (s : State) : List Byte :=
  let head := frameHead s.haddr s.daddr (pcbS s.cfg.scode.ifsRequest) [s.cfg.ifsDefault]
  head ++ [lrc head]

/-- The attempts of T1OPEN that are left, `left` of them, the last one so far having ended with the code `last`
(43_t1_protocol R200, R201): the next one begins with RESYNCH_REQUEST; none left is InitFailed(last). -/
def State.tryOpen : Nat → BitVec 8 → State → State
  | 0, last, s => s.abortWith .initFailed last
  | left + 1, _, s =>
    if s.cfg.retryBudget = 0 then State.tryOpen left Err.tooManyRetries.code s
    else s.callExchange (.opening (s.cfg.openAttempts - left) .resynch) s.cfg.retryBudget s.resynchFrame

/-- An error raised inside internal_transmit, or a wrong reply to T1OPEN: T1XMIT ends with it (43_t1_protocol R202,
R207), T1OPEN ends the attempt with it (R201). -/
def State.failJob (s : State) (job : Job) (e : Err) : State :=
  match job with
  | .xmit => s.abortWith e 0#8
  | .opening a _ => State.tryOpen (s.cfg.openAttempts - a) e.code s

/-- `internal_transmit(r, out)` up to its exchange (43_t1_protocol R192). -/
def State.transmit (s : State) (job : Job) (r : Nat) (out : List Byte) : State :=
  if r = 0 then s.failJob job .tooManyRetries else s.callExchange job r out

/-- The recursive call with one fewer retry (43_t1_protocol R194, R195, R196, R199). -/
def State.retransmit (s : State) (w : Work) (out : List Byte) : State := s.transmit w.job (w.retries - 1) out

/-- The rest of T1XMIT after internal_transmit returned `b` (43_t1_protocol R202, R203). -/
def State.endXmit (s : State) (b : Block) : State :=
  let s := if s.cfg.sendSeqAdvance then { s with sseq := s.sseq ^^^ 1#1 } else s
  ({ s.storeData b.data with
    r0 := b.header
    r1 := addressWord (nadSrc b.nad) (nadDst b.nad) 0#2
    work := none }).finish

/-- The rest of the RESYNCH half of an attempt after internal_transmit returned `b` (43_t1_protocol R200). -/
def State.endResynch (s : State) (a : Nat) (b : Block) : State :=
  if blockType b.pcb = .S ∧ pcbSCode b.pcb = s.cfg.scode.resynchResponse then
    let s := { s with sseq := 0#1, rseq := 0#1 }
    s.transmit (.opening a .ifs) s.cfg.retryBudget s.ifsFrame
  else s.failJob (.opening a .resynch) .unexpectedBlock

/-- The rest of the IFS half of an attempt after internal_transmit returned `b` (43_t1_protocol R200, 30_encoding R104). -/
def State.endIfs (s : State) (a : Nat) (b : Block) : State :=
  if blockType b.pcb = .S ∧ pcbSCode b.pcb = s.cfg.scode.ifsResponse ∧ b.len = 1#8 then
    ({ s with ifs := ifsOfOctet (b.data.getD 0 0#8), work := none }).finish
  else s.failJob (.opening a .ifs) .unexpectedBlock

/-- internal_transmit returns the block `b` to its caller. -/
def State.returnBlock (s : State) (job : Job) (b : Block) : State :=
  match job with
  | .xmit => s.endXmit b
  | .opening a .resynch => s.endResynch a b
  | .opening a .ifs => s.endIfs a b

/-- Arm I (43_t1_protocol R193): RSEQ is toggled and the block returned; nothing else is tested (R208). -/
def State.armI (s : State) (w : Work) (b : Block) : State :=
  ({ s with rseq := s.rseq ^^^ 1#1 }).returnBlock w.job b

/-- Arm R (43_t1_protocol R194): resend the slot the R-block names; an empty slot is ResendSlotEmpty. -/
def State.armR (s : State) (w : Work) (nr : BitVec 1) : State :=
  if s.slotLen nr = 0#16 then s.failJob w.job .resendSlotEmpty else s.retransmit w (s.slot nr)

/-- Arm WTX (43_t1_protocol R195): answer WTX_RESPONSE, echoing the whole data field; stored in no slot. -/
def State.armWtx (s : State) (w : Work) (data : List Byte) : State :=
  match mkFrame 0#1 s.haddr (nadDst (frameFields w.out).nad) (pcbS s.cfg.scode.wtxResponse) data with
  | .ok f => s.retransmit w f
  | .error e => s.failJob w.job e

/-- The R-block of arm EDC: sequence bit RSEQ, error code EDC = 1, destination that of the outbound block
(43_t1_protocol R196, R206). -/
def State.edcFrame (s : State) (w : Work) : List Byte :=
  let head := frameHead s.haddr (nadDst (frameFields w.out).nad) (pcbR s.rseq 1#4) []
  head ++ [lrc head]

/-- Arm EDC (43_t1_protocol R196): build the R-block, toggle SSEQ, store the R-block in the slot SSEQ then names, and
send it with one fewer retry. -/
def State.armEdc (s : State) (w : Work) : State :=
  let rb := s.edcFrame w
  let s := { s with sseq := s.sseq ^^^ 1#1 }
  (s.storeSlot s.sseq rb).retransmit w rb

/-- Arm unknown (43_t1_protocol R199), under the policy of the configuration. -/
def State.armUnknown (s : State) (w : Work) : State :=
  match s.cfg.unknownReply with
  | .retrySame => s.retransmit w w.out
  | .fail => s.failJob w.job .unexpectedBlock

/-- Arm RESYNCH (43_t1_protocol R197): a RESYNCH_RESPONSE to an outbound RESYNCH_REQUEST is returned; to any other
outbound block it is unknown (R199). -/
def State.armResynch (s : State) (w : Work) (b : Block) : State :=
  if (frameFields w.out).pcb = pcbS s.cfg.scode.resynchRequest then s.returnBlock w.job b else s.armUnknown w

/-- Arm IFS (43_t1_protocol R198): an IFS_RESPONSE to an outbound IFS_REQUEST is returned; to any other outbound block it
is unknown (R199). -/
def State.armIfs (s : State) (w : Work) (b : Block) : State :=
  if (frameFields w.out).pcb = pcbS s.cfg.scode.ifsRequest then s.returnBlock w.job b else s.armUnknown w

/-- Run an arm on the working storage; a block no exchange asked for is not received (20_memory R72; log entry 7). -/
def State.whileWaiting (s : State) (arm : Work → State) : State :=
  match s.work with
  | some w => arm w
  | none => s

/-- The block whose raw octets were last received, its PCB being the octet `pcb` (log entry 17). -/
def received (w : Work) (pcb : Byte) : Block := { frameFields w.rx with pcb := pcb }

/-- The arm a PCB octet selects (43_t1_protocol R192). A command is no reply and changes nothing here. -/
def State.reply (s : State) (i : Instr) : State :=
  match i with
  | .pcbI ns more ignored => s.whileWaiting fun w => s.armI w (received w (pcbOctetI ns more ignored))
  | .pcbR _ nr _ => s.whileWaiting fun w => s.armR w nr
  | .pcbWtxRequest => s.whileWaiting fun w => s.armWtx w (frameFields w.rx).data
  | .pcbResynchResponse =>
    s.whileWaiting fun w => s.armResynch w (received w (pcbS s.cfg.scode.resynchResponse))
  | .pcbIfsResponse => s.whileWaiting fun w => s.armIfs w (received w (pcbS s.cfg.scode.ifsResponse))
  | .pcbResynchRequest => s.whileWaiting s.armUnknown
  | .pcbIfsRequest => s.whileWaiting s.armUnknown
  | .pcbAbortRequest => s.whileWaiting s.armUnknown
  | .pcbAbortResponse => s.whileWaiting s.armUnknown
  | .pcbWtxResponse => s.whileWaiting s.armUnknown
  | .pcbVppStateErrorResponse => s.whileWaiting s.armUnknown
  | .nop | .srst | .tagdec | .tagenc | .lendec | .lenenc | .tlvparse | .tlvparseat | .tlvser | .tlvfind
  | .tlvappend | .tlvnewp | .tlvnewc | .tlvsetv | .tlvget | .tlvgetv | .tlvclr | .t1mki | .t1mkr | .t1mks
  | .t1parse | .t1edc | .t1open | .t1xmit => s

/-- What an event comes to: a state with nothing left to run, or an instruction to run on a state. -/
inductive Arrival where
  | settled (s : State)
  | run (i : Instr) (s : State)

/-- An answer of the LINE reaches the engine (43_t1_protocol R191, R192): the engine keeps at most 259 octets (R190);
a failure and a LengthMismatch end internal_transmit (R207), an EDC failure goes to arm EDC, an accepted frame to the
arm its PCB names, an S-block of no known code to arm unknown. A waiting engine alone receives (log entry 7). -/
def State.receive (s : State) (a : Answer) : Arrival :=
  match s.work with
  | none => .settled s
  | some w =>
    match a with
    | .fail => .settled (s.failJob w.job .transportError)
    | .ok g =>
      let w := { w with rx := g.take fbCap }
      let s := { s with work := some w }
      match t1Parse 0#1 w.rx with
      | .error .edcError => .settled (s.armEdc w)
      | .error e => .settled (s.failJob w.job e)
      | .ok b =>
        match decodePcb s.cfg.scode b.pcb with
        | .ok i => .run i s
        | .error _ => .settled (s.armUnknown w)

/-- An answer handled to the end of its arm. -/
def State.answer (s : State) (a : Answer) : State :=
  match s.receive a with
  | .settled t => t
  | .run i t => t.reply i

/-- Serve the answers of the LINE that stand first in the queue of events, as long as a command waits for one (00_scope
R8: a command with its answers is one transition; log entry 1). -/
def State.serve : List Input → State → State
  | .line a :: rest, s =>
    match s.work with
    | some _ => State.serve rest (({ s with inputs := rest }).answer a)
    | none => s
  | _, s => s

end Sys2Proof.Machine
end

