-- ==== Sys2Proof/Machine/Reply.lean ====
section
/-! DEFINITION. The meanings of the PCB octets of a received frame: each runs its arm of internal_transmit
(43_t1_protocol R192) on the command that waits. With no command waiting nothing is received (20_memory R72; log
entry 7). -/

namespace Sys2Proof.Machine

/-- PCB.I: an I-block was received (43_t1_protocol arm I, R193). -/
def execPcbI (ns more : BitVec 1) (ignored : BitVec 5) (s : State) : Host.Outcome State Fault Refusal :=
  .next (s.reply (.pcbI ns more ignored))

/-- PCB.R: an R-block was received (43_t1_protocol arm R, R194; its error code and bit 5 are not read). -/
def execPcbR (ignored nr : BitVec 1) (err : BitVec 4) (s : State) : Host.Outcome State Fault Refusal :=
  .next (s.reply (.pcbR ignored nr err))

/-- PCB.S.RESYNCH_REQUEST was received (43_t1_protocol arm unknown, R199). -/
def execPcbResynchRequest (s : State) : Host.Outcome State Fault Refusal :=
  .next (s.reply .pcbResynchRequest)

/-- PCB.S.RESYNCH_RESPONSE was received (43_t1_protocol arm RESYNCH, R197, or unknown, R199). -/
def execPcbResynchResponse (s : State) : Host.Outcome State Fault Refusal :=
  .next (s.reply .pcbResynchResponse)

/-- PCB.S.IFS_REQUEST was received (43_t1_protocol arm unknown, R199). -/
def execPcbIfsRequest (s : State) : Host.Outcome State Fault Refusal :=
  .next (s.reply .pcbIfsRequest)

/-- PCB.S.IFS_RESPONSE was received (43_t1_protocol arm IFS, R198, or unknown, R199). -/
def execPcbIfsResponse (s : State) : Host.Outcome State Fault Refusal :=
  .next (s.reply .pcbIfsResponse)

/-- PCB.S.ABORT_REQUEST was received (43_t1_protocol arm unknown, R199). -/
def execPcbAbortRequest (s : State) : Host.Outcome State Fault Refusal :=
  .next (s.reply .pcbAbortRequest)

/-- PCB.S.ABORT_RESPONSE was received (43_t1_protocol arm unknown, R199). -/
def execPcbAbortResponse (s : State) : Host.Outcome State Fault Refusal :=
  .next (s.reply .pcbAbortResponse)

/-- PCB.S.WTX_REQUEST was received (43_t1_protocol arm WTX, R195). -/
def execPcbWtxRequest (s : State) : Host.Outcome State Fault Refusal :=
  .next (s.reply .pcbWtxRequest)

/-- PCB.S.WTX_RESPONSE was received (43_t1_protocol arm unknown, R199). -/
def execPcbWtxResponse (s : State) : Host.Outcome State Fault Refusal :=
  .next (s.reply .pcbWtxResponse)

/-- PCB.S.VPP_STATE_ERROR_RESPONSE was received (43_t1_protocol arm unknown, R199). -/
def execPcbVppStateErrorResponse (s : State) : Host.Outcome State Fault Refusal :=
  .next (s.reply .pcbVppStateErrorResponse)

end Sys2Proof.Machine
end

