-- ==== Sys2Proof/Machine/System.lean ====
section
/-! DEFINITION. The system commands NOP and SRST (44_system R221, R222). -/

namespace Sys2Proof.Machine

/-- NOP (44_system R221): nothing beyond the start and the end of a command. -/
def execNop (s : State) : Host.Outcome State Fault Refusal := .next s.finish

/-- SRST (44_system R222): all state takes its reset value; then STATUS is 2 and CMD holds 0x01. -/
def execSrst (s : State) : Host.Outcome State Fault Refusal :=
  .next ({ s.resetArch with cmd := 0x01#8 }).finish

end Sys2Proof.Machine
end

