-- ==== Sys2Proof/Machine/T1Block.lean ====
section
/-! DEFINITION. The T=1 block unit (42_t1_block_unit R170 to R177): constructors, parser and checksum generator. No
command of it touches the session or calls the LINE (R170). -/

namespace Sys2Proof.Machine

/-- A frame that was built: FB, FLEN, and R0 its header word (42_t1_block_unit R172 to R174). -/
def State.built (s : State) (raw : List Byte) : State :=
  { s.storeFrame raw with r0 := (frameFields raw).header }

/-- The common tail of the constructors (30_encoding R102) with the addresses of A0. -/
def State.build (s : State) (pcb : Byte) (data : List Byte) : Except Err State :=
  match mkFrame s.edcMode (addrSrc s.a0) (addrDst s.a0) pcb data with
  | .ok raw => .ok (s.built raw)
  | .error e => .error e

/-- The body of T1MKI (42_t1_block_unit R172): mode, DLEN, then the frame; no octet of DB is read before. -/
def t1mkiBody (s : State) : Except Err State :=
  if s.edcMode = 1#1 then .error .notImplemented
  else if s.dlen.toNat > lenMax then .error .payloadTooLarge
  else s.build (pcbI (s.a1.extractLsb' 0 1)) s.dbData

/-- T1MKI (42_t1_block_unit R172). -/
def execT1mki (s : State) : Host.Outcome State Fault Refusal := .next (s.complete (t1mkiBody s))

/-- The body of T1MKR (42_t1_block_unit R173). -/
def t1mkrBody (s : State) : Except Err State :=
  if s.edcMode = 1#1 then .error .notImplemented
  else if s.a2.toNat > 2 then .error .badOperand
  else s.build (pcbR (s.a1.extractLsb' 0 1) (s.a2.extractLsb' 0 4)) []

/-- T1MKR (42_t1_block_unit R173). -/
def execT1mkr (s : State) : Host.Outcome State Fault Refusal := .next (s.complete (t1mkrBody s))

/-- The body of T1MKS (42_t1_block_unit R174): mode, S code, DLEN, then the frame. -/
def t1mksBody (s : State) : Except Err State :=
  if s.edcMode = 1#1 then .error .notImplemented
  else if s.a1.extractLsb' 0 6 ∉ s.cfg.scode.codes then .error .badOperand
  else if s.dlen.toNat > lenMax then .error .payloadTooLarge
  else s.build (pcbS (s.a1.extractLsb' 0 6)) s.dbData

/-- T1MKS (42_t1_block_unit R174). -/
def execT1mks (s : State) : Host.Outcome State Fault Refusal := .next (s.complete (t1mksBody s))

/-- The body of T1PARSE (42_t1_block_unit R175). -/
def t1parseBody (s : State) : Except Err State :=
  match t1Parse s.edcMode s.fbFrame with
  | .error e => .error e
  | .ok b => .ok { s.storeData b.data with
      r0 := b.header
      r1 := addressWord (nadSrc b.nad) (nadDst b.nad) (blockType b.pcb).code }

/-- T1PARSE (42_t1_block_unit R175). -/
def execT1parse (s : State) : Host.Outcome State Fault Refusal := .next (s.complete (t1parseBody s))

/-- The body of T1EDC (42_t1_block_unit R176): FLEN and EDCMODE are not read. -/
def t1edcBody (s : State) : Except Err State :=
  if s.a0.toNat > fbCap then .error .badOperand
  else .ok { s with r0 := (lrc (s.fb.readRange 0 s.a0.toNat)).setWidth 32 }

/-- T1EDC (42_t1_block_unit R176). -/
def execT1edc (s : State) : Host.Outcome State Fault Refusal := .next (s.complete (t1edcBody s))

end Sys2Proof.Machine
end

