-- ==== Sys2Proof/Machine/T1Protocol.lean ====
section
/-! DEFINITION. The protocol commands T1OPEN and T1XMIT (43_t1_protocol R200 to R205). Each begins, then serves the
answers of the LINE that stand next in the queue of events; without them it waits with BUSY = 1. -/

namespace Sys2Proof.Machine

/-- T1OPEN up to its first exchange (43_t1_protocol R200): the mode test, then the first of OPEN_ATTEMPTS attempts. -/
def State.beginOpen (s : State) : State :=
  if s.edcMode = 1#1 then s.raise .notImplemented else State.tryOpen s.cfg.openAttempts 0#8 s

/-- T1OPEN (43_t1_protocol R200). -/
def execT1open (s : State) : Host.Outcome State Fault Refusal := .next (State.serve s.inputs s.beginOpen)

/-- T1XMIT up to its first exchange (43_t1_protocol R202): the IFS test, the mode test, the 254 test, then the I-block
with the current SSEQ, stored in the slot SSEQ names and handed to internal_transmit. -/
def State.beginXmit (s : State) : State :=
  if s.dlen.toNat > s.ifs.toNat then s.raise .payloadTooLarge
  else
    match mkFrame s.edcMode s.haddr (addrSrc s.a0) (pcbI s.sseq) s.dbData with
    | .error e => s.raise e
    | .ok out => (s.storeSlot s.sseq out).transmit .xmit s.cfg.retryBudget out

/-- T1XMIT (43_t1_protocol R202). -/
def execT1xmit (s : State) : Host.Outcome State Fault Refusal := .next (State.serve s.inputs s.beginXmit)

end Sys2Proof.Machine
end

