-- ==== Sys2Proof/Machine/Ber.lean ====
section
/-! DEFINITION. BER tags and lengths (30_encoding R82 to R88). A decoder reads a window of octets, from its offset up to
its limit, and gives back the octets it left unread; the new offset is the limit less their number. -/

namespace Sys2Proof.Machine

/-- The base-128 groups of a long-form tag number, after the groups whose number is `n` (30_encoding R84, R85). -/
def tagNumber (n : Nat) : List Byte → Except Err (Nat × List Byte)
  | [] => .error .malformedTag
  | g :: rest =>
    if 2 ^ 21 ≤ n then .error .malformedTag
    else
      let n' := n * 128 + (g.extractLsb' 0 7).toNat
      if g.getLsbD 7 then tagNumber n' rest else .ok (n', rest)

/-- `tag_decode` (30_encoding R85). PRESUMED: class in bits 7-6, constructed in bit 5 (G3; log entry 6; unsafe). -/
def tagDecode : List Byte → Except Err (Tag × List Byte)
  | [] => .error .malformedTag
  | f :: rest =>
    if f.extractLsb' 0 5 = 0x1F#5 then
      match tagNumber 0 rest with
      | .ok (n, rest') => .ok (⟨BitVec.ofNat 28 n, f.extractLsb' 6 2, f.getLsbD 5⟩, rest')
      | .error e => .error e
    else .ok (⟨(f.extractLsb' 0 5).setWidth 28, f.extractLsb' 6 2, f.getLsbD 5⟩, rest)

/-- `tag_size` (30_encoding R86). -/
def tagSize (n : Nat) : Nat :=
  if n < 0x1F then 1 else if n < 0x80 then 2 else if n < 0x4000 then 3 else if n < 0x200000 then 4 else 5

/-- The continuation octets of a long-form tag: `k` groups of 7 bits, most significant first, bit 7 set on all but the
last (30_encoding R84, R86). -/
def tagGroups : Nat → Nat → List Byte
  | 0, _ => []
  | j + 1, n => (BitVec.ofBool (decide (0 < j)) ++ BitVec.ofNat 7 (n >>> (7 * j))) :: tagGroups j n

/-- The top three bits of the first tag octet: class, then constructed (30_encoding R83, G3). -/
def tagLead (t : Tag) : BitVec 3 := t.cls ++ BitVec.ofBool t.constructed

/-- `tag_encode` (30_encoding R86). -/
def tagEncode (t : Tag) : List Byte :=
  if t.number.toNat < 0x1F then [tagLead t ++ t.number.setWidth 5]
  else (tagLead t ++ 0x1F#5) :: tagGroups (tagSize t.number.toNat - 1) t.number.toNat

/-- Octets read as one number, most significant first (30_encoding R87). -/
def bigEndian (bs : List Byte) : Nat := bs.foldl (fun acc b => acc * 256 + b.toNat) 0

/-- `len_decode` (30_encoding R87). -/
def lenDecode : List Byte → Except Err (Nat × List Byte)
  | [] => .error .malformedTlv
  | f :: rest =>
    if f.getLsbD 7 then
      let k := (f.extractLsb' 0 7).toNat
      if k = 0 ∨ 4 < k then .error .malformedTlv
      else if rest.length < k then .error .malformedTlv
      else .ok (bigEndian (rest.take k), rest.drop k)
    else .ok (f.toNat, rest)

/-- `len_size` (30_encoding R88). -/
def lenSize (l : Nat) : Nat :=
  if l < 0x80 then 1 else if l < 0x100 then 2 else if l < 0x10000 then 3 else if l < 0x1000000 then 4 else 5

/-- The `k` low octets of a number, most significant first (30_encoding R88). -/
def lenOctets : Nat → Nat → List Byte
  | 0, _ => []
  | j + 1, l => BitVec.ofNat 8 (l >>> (8 * j)) :: lenOctets j l

/-- `len_encode` (30_encoding R88). -/
def lenEncode (l : Nat) : List Byte :=
  if l < 0x80 then [BitVec.ofNat 8 l]
  else (0x80#8 ||| BitVec.ofNat 8 (lenSize l - 1)) :: lenOctets (lenSize l - 1) l

end Sys2Proof.Machine
end

