-- ==== Sys2Proof/Machine/TagLen.lean ====
section
/-! DEFINITION. The tag and length unit (40_tag_len_unit R121 to R125). -/

namespace Sys2Proof.Machine

/-- R0 and R1 of a decoder: the decoded word and the new offset (40_tag_len_unit R121, R123). -/
def State.decoded (s : State) (w : Word) (rest : List Byte) : State := { s with r0 := w, r1 := s.tbOffset rest }

/-- The body of TAGDEC (40_tag_len_unit R121). -/
def tagdecBody (s : State) : Except Err State :=
  match tagDecode (s.tbFrom s.a0.toNat) with
  | .ok (t, rest) => .ok (s.decoded (wordOfTag t) rest)
  | .error e => .error e

/-- TAGDEC (40_tag_len_unit R121). -/
def execTagdec (s : State) : Host.Outcome State Fault Refusal := .next (s.complete (tagdecBody s))

/-- The body of TAGENC (40_tag_len_unit R122). -/
def tagencBody (s : State) : Except Err State :=
  if wildcard s.a0 then .error .badOperand else s.emit (tagEncode (tagOfWord s.a0))

/-- TAGENC (40_tag_len_unit R122). -/
def execTagenc (s : State) : Host.Outcome State Fault Refusal := .next (s.complete (tagencBody s))

/-- The body of LENDEC (40_tag_len_unit R123). -/
def lendecBody (s : State) : Except Err State :=
  match lenDecode (s.tbFrom s.a0.toNat) with
  | .ok (l, rest) => .ok (s.decoded (BitVec.ofNat 32 l) rest)
  | .error e => .error e

/-- LENDEC (40_tag_len_unit R123). -/
def execLendec (s : State) : Host.Outcome State Fault Refusal := .next (s.complete (lendecBody s))

/-- LENENC (40_tag_len_unit R124). -/
def execLenenc (s : State) : Host.Outcome State Fault Refusal :=
  .next (s.complete (s.emit (lenEncode s.a0.toNat)))

end Sys2Proof.Machine
end

