-- ==== Sys2Proof/Machine/Arena.lean ====
section
/-! DEFINITION. The TLV node arena: walks along `parent` and `children`, `size`, `enc`, `relength`, and the two phases
of a parse (10_state R37 to R40, 30_encoding R90, 41_tlv_unit R141, R142, R148, R155). Every walk is bounded by a count
of nodes, which in an arena that satisfies 10_state R39 no walk uses up (log entry 12). -/

namespace Sys2Proof.Machine

/-- The children of a node in order; none for a primitive node. -/
def Node.children (n : Node) : List Nat :=
  match n.body with
  | .prim _ => []
  | .cons kids => kids

/-- The value octets of a node; none for a constructed node. -/
def Node.value (n : Node) : List Byte :=
  match n.body with
  | .prim v => v
  | .cons _ => []

/-- Whether the body is a child list. -/
def Body.isCons : Body → Bool
  | .prim _ => false
  | .cons _ => true

/-- `size(n)`: tag octets, length octets and content (30_encoding R90). -/
def Node.size (n : Node) : Nat := tagSize n.tag.number.toNat + lenSize n.length + n.length

/-- `size` of the node with id `x`; 0 for no node. -/
def sizeAt (ns : List Node) (x : Nat) : Nat :=
  match ns[x]? with
  | some n => n.size
  | none => 0

/-- The sum of `size` over a list of ids (10_state R39(c)). -/
def sizeSum (ns : List Node) (xs : List Nat) : Nat := (xs.map (sizeAt ns)).sum

/-- `enc` of the node with id `x` (30_encoding R90), to a depth of `fuel` nodes. -/
def encNode : Nat → List Node → Nat → List Byte
  | 0, _, _ => []
  | fuel + 1, ns, x =>
    match ns[x]? with
    | none => []
    | some n =>
      tagEncode n.tag ++ lenEncode n.length ++
        match n.body with
        | .prim v => v
        | .cons kids => kids.flatMap fun c => encNode fuel ns c

/-- The parent of a node, none for a root (10_state R37). -/
def parentOf (ns : List Node) (x : Nat) : Option Nat :=
  match ns[x]? with
  | some n => n.parent
  | none => none

/-- The ids from `x` up to its root along `parent`, at most `fuel` of them. -/
def pathUp : Nat → List Node → Nat → List Nat
  | 0, _, _ => []
  | fuel + 1, ns, x =>
    x :: match parentOf ns x with
      | some p => pathUp fuel ns p
      | none => []

/-- `root_of(x)` (41_tlv_unit R149): the last id of the path up. -/
def rootOf (ns : List Node) (x : Nat) : Nat := (pathUp ns.length ns x).getLastD x

/-- `depth(x)` (41_tlv_unit R149): the number of nodes of the path up. -/
def depthOf (ns : List Node) (x : Nat) : Nat := (pathUp ns.length ns x).length

/-- `height(x)` (41_tlv_unit R149): 1 for a primitive or childless node, else 1 plus the greatest height of a child. -/
def heightTo : Nat → List Node → Nat → Nat
  | 0, _, _ => 0
  | fuel + 1, ns, x =>
    match ns[x]? with
    | none => 1
    | some n => 1 + (n.children.map fun c => heightTo fuel ns c).foldr max 0

/-- `height(x)` over the whole arena. -/
def heightOf (ns : List Node) (x : Nat) : Nat := heightTo ns.length ns x

/-- Change the node with id `x`; nothing for no node. -/
def updateNode (ns : List Node) (x : Nat) (f : Node → Node) : List Node :=
  match ns[x]? with
  | some n => ns.set x (f n)
  | none => ns

/-- One level of `relength` (41_tlv_unit R148): a constructed node takes the sum of its children's sizes. -/
def relengthAt (ns : List Node) (x : Nat) : List Node :=
  updateNode ns x fun n =>
    match n.body with
    | .prim _ => n
    | .cons kids => { n with length := sizeSum ns kids }

/-- `relength(x)` (41_tlv_unit R148): the node and then each ancestor, up to the root. -/
def relength (ns : List Node) (x : Nat) : List Node := (pathUp ns.length ns x).foldl relengthAt ns

/-- A parsed tree that is not yet in the arena (41_tlv_unit R141). -/
inductive Tree where
  | prim (tag : Tag) (value : List Byte)
  | cons (tag : Tag) (kids : List Tree)
deriving Repr

/-- The children of a constructed node, parsed by `p` one after the other until their window is used up (41_tlv_unit
R141). `fuel` is the number of octets of the window, and every child takes at least one. -/
def parseKids (p : List Byte → Except Err (Tree × List Byte)) : Nat → List Byte → Except Err (List Tree)
  | _, [] => .ok []
  | 0, _ :: _ => .error .malformedTlv
  | fuel + 1, b :: w =>
    match p (b :: w) with
    | .error e => .error e
    | .ok (t, w') =>
      match parseKids p fuel w' with
      | .error e => .error e
      | .ok ts => .ok (t :: ts)

/-- `parse_node` (41_tlv_unit R141) on the window `w`, with `levels` depths left: DepthExceeded at 0, then the tag, the
length, the comparison with the window, and the content. A tag failure is reported as MalformedTlv (D16); a child sees
only its parent's content (D13). -/
def parseNode : Nat → List Byte → Except Err (Tree × List Byte)
  | 0, _ => .error .depthExceeded
  | levels + 1, w =>
    match tagDecode w with
    | .error _ => .error .malformedTlv
    | .ok (t, w1) =>
      match lenDecode w1 with
      | .error _ => .error .malformedTlv
      | .ok (l, w2) =>
        if w2.length < l then .error .malformedTlv
        else if t.constructed then
          match parseKids (parseNode levels) l (w2.take l) with
          | .error e => .error e
          | .ok ts => .ok (.cons t ts, w2.drop l)
        else .ok (.prim t (w2.take l), w2.drop l)

mutual
/-- The number of nodes of a tree (41_tlv_unit R142). -/
def Tree.count : Tree → Nat
  | .prim _ _ => 1
  | .cons _ kids => 1 + Tree.countList kids
/-- The number of nodes of a list of trees. -/
def Tree.countList : List Tree → Nat
  | [] => 0
  | t :: ts => t.count + Tree.countList ts
end

mutual
/-- The total length of the primitive values of a tree (41_tlv_unit R142). -/
def Tree.valueBytes : Tree → Nat
  | .prim _ v => v.length
  | .cons _ kids => Tree.valueBytesList kids
/-- The total length of the primitive values of a list of trees. -/
def Tree.valueBytesList : List Tree → Nat
  | [] => 0
  | t :: ts => t.valueBytes + Tree.valueBytesList ts
end

mutual
/-- `size` of a tree: the octets of its shortest encoding (30_encoding R90, 41_tlv_unit R142). -/
def Tree.size : Tree → Nat
  | .prim t v => tagSize t.number.toNat + lenSize v.length + v.length
  | .cons t kids => tagSize t.number.toNat + lenSize (Tree.sizeList kids) + Tree.sizeList kids
/-- The sum of `size` over a list of trees. -/
def Tree.sizeList : List Tree → Nat
  | [] => 0
  | t :: ts => t.size + Tree.sizeList ts
end

/-- The content length of a tree, which becomes the `length` of its node (41_tlv_unit R142). -/
def Tree.length : Tree → Nat
  | .prim _ v => v.length
  | .cons _ kids => Tree.sizeList kids

/-- The tag of a tree. -/
def Tree.tag : Tree → Tag
  | .prim t _ => t
  | .cons t _ => t

/-- The ids the roots of a list of trees get when allocation begins at `x` (41_tlv_unit R142: pre-order). -/
def Tree.rootIds : List Tree → Nat → List Nat
  | [], _ => []
  | t :: ts, x => x :: Tree.rootIds ts (x + t.count)

mutual
/-- The node records of a tree in pre-order, its root getting the id `x` and the parent `p` (41_tlv_unit R142). -/
def Tree.records : Tree → Nat → Option Nat → List Node
  | .prim t v, _, p => [⟨t, v.length, .prim v, p⟩]
  | .cons t kids, x, p =>
    ⟨t, Tree.sizeList kids, .cons (Tree.rootIds kids (x + 1)), p⟩ :: Tree.recordsList kids (x + 1) (some x)
/-- The node records of a list of trees, one tree completely before the next. -/
def Tree.recordsList : List Tree → Nat → Option Nat → List Node
  | [], _, _ => []
  | t :: ts, x, p => t.records x p ++ Tree.recordsList ts (x + t.count) p
end

/-- The tree that hangs under the node with id `x`, to a depth of `fuel` nodes. Two nodes are structurally equal
(41_tlv_unit R155) when their trees are equal. -/
def treeAt : Nat → List Node → Nat → Tree
  | 0, _, _ => .prim ⟨0, 0, false⟩ []
  | fuel + 1, ns, x =>
    match ns[x]? with
    | none => .prim ⟨0, 0, false⟩ []
    | some n =>
      match n.body with
      | .prim v => .prim n.tag v
      | .cons kids => .cons n.tag (kids.map fun c => treeAt fuel ns c)

/-- `commit` (41_tlv_unit R142): store a parsed tree, with the id of its root, or ArenaFull. -/
def State.commit (s : State) (t : Tree) : Except Err (State × Nat) :=
  if s.ncnt.toNat + t.count > s.cfg.nodeCap ∨ s.vused.toNat + t.valueBytes > s.cfg.valCap then .error .arenaFull
  else .ok ({ s with
    nodes := s.nodes ++ t.records s.ncnt.toNat none
    ncnt := BitVec.ofNat 32 (s.ncnt.toNat + t.count)
    vused := BitVec.ofNat 32 (s.vused.toNat + t.valueBytes) }, s.ncnt.toNat)

/-- The node a register names (10_state R38, 41_tlv_unit R140: a node id is valid below NCNT), or BadNode. -/
def State.node (s : State) (w : Word) : Except Err Node :=
  if w.toNat < s.ncnt.toNat then
    match s.nodes[w.toNat]? with
    | some n => .ok n
    | none => .error .badNode
  else .error .badNode

end Sys2Proof.Machine
end

