-- ==== Sys2Proof/Machine/Tlv.lean ====
section
/-! DEFINITION. The TLV tree unit (41_tlv_unit R143 to R154, R160). The tests of a command are made in the order its
pseudocode writes them, and an error leaves all but STATUS, ERR and SUBERR as before (R140). -/

namespace Sys2Proof.Machine

/-- Parse at an offset, then commit (41_tlv_unit R143, R144): R0 the root id, R1 the new offset. -/
def parseAtBody (s : State) (o : Nat) : Except Err State :=
  match parseNode s.cfg.depthMax (s.tbFrom o) with
  | .error e => .error e
  | .ok (t, rest) =>
    match s.commit t with
    | .error e => .error e
    | .ok (s', id) => .ok { s' with r0 := BitVec.ofNat 32 id, r1 := s.tbOffset rest }

/-- TLVPARSE (41_tlv_unit R143): offset 0; A0 is not read. -/
def execTlvparse (s : State) : Host.Outcome State Fault Refusal := .next (s.complete (parseAtBody s 0))

/-- TLVPARSEAT (41_tlv_unit R144). -/
def execTlvparseat (s : State) : Host.Outcome State Fault Refusal := .next (s.complete (parseAtBody s s.a0.toNat))

/-- The body of TLVSER (41_tlv_unit R145). -/
def tlvserBody (s : State) : Except Err State :=
  match s.node s.a0 with
  | .error e => .error e
  | .ok _ => s.emit (encNode s.nodes.length s.nodes s.a0.toNat)

/-- TLVSER (41_tlv_unit R145). -/
def execTlvser (s : State) : Host.Outcome State Fault Refusal := .next (s.complete (tlvserBody s))

/-- Whether a node matches the operand A1 of TLVFIND: the wildcard, or all three Tag attributes equal (41_tlv_unit R147). -/
def matchesWord (w : Word) (n : Node) : Bool := wildcard w || decide (n.tag = tagOfWord w)

/-- The first id of a list whose node matches (41_tlv_unit R147). -/
def findMatch (ns : List Node) (w : Word) : List Nat → Option Nat
  | [] => none
  | c :: cs =>
    match ns[c]? with
    | some n => if matchesWord w n then some c else findMatch ns w cs
    | none => findMatch ns w cs

/-- The children after the one with id `x` (41_tlv_unit R147). -/
def childrenAfter (kids : List Nat) (x : Nat) : List Nat := kids.drop (kids.idxOf x + 1)

/-- R0 and R1 of TLVFIND (41_tlv_unit R147). -/
def State.found (s : State) (x : Option Nat) : State :=
  { s with r0 := wordOfId x, r1 := if x.isSome then 1#32 else 0#32 }

/-- The body of TLVFIND (41_tlv_unit R147). -/
def tlvfindBody (s : State) : Except Err State :=
  match s.node s.a0 with
  | .error e => .error e
  | .ok n =>
    if s.a2 = noneWord then .ok (s.found (findMatch s.nodes s.a1 n.children))
    else
      match s.node s.a2 with
      | .error e => .error e
      | .ok after =>
        if after.parent = some s.a0.toNat then
          .ok (s.found (findMatch s.nodes s.a1 (childrenAfter n.children s.a2.toNat)))
        else .error .badNode

/-- TLVFIND (41_tlv_unit R147). -/
def execTlvfind (s : State) : Host.Outcome State Fault Refusal := .next (s.complete (tlvfindBody s))

/-- The arena after the root `c` became the last child of `p` and the lengths were restored (41_tlv_unit R148, R149). -/
def appendChild (ns : List Node) (p c : Nat) : List Node :=
  let ns := updateNode ns p fun n => { n with body := .cons (n.children ++ [c]) }
  let ns := updateNode ns c fun n => { n with parent := some p }
  relength ns p

/-- The body of TLVAPPEND (41_tlv_unit R149). -/
def tlvappendBody (s : State) : Except Err State :=
  match s.node s.a0, s.node s.a1 with
  | .ok p, .ok c =>
    if p.body.isCons = false then .error .notConstructed
    else if c.parent ≠ none then .error .badNode
    else if s.a1.toNat = rootOf s.nodes s.a0.toNat then .error .badNode
    else if depthOf s.nodes s.a0.toNat + heightOf s.nodes s.a1.toNat > s.cfg.depthMax then .error .depthExceeded
    else .ok { s with nodes := appendChild s.nodes s.a0.toNat s.a1.toNat }
  | _, _ => .error .badNode

/-- TLVAPPEND (41_tlv_unit R149). -/
def execTlvappend (s : State) : Host.Outcome State Fault Refusal := .next (s.complete (tlvappendBody s))

/-- A new root node with the id NCNT, holding `used` octets of value (41_tlv_unit R150, R151); R0 takes the id. -/
def State.newRoot (s : State) (n : Node) (used : Nat) : State :=
  { s with
    nodes := s.nodes ++ [n]
    ncnt := s.ncnt + 1
    vused := BitVec.ofNat 32 (s.vused.toNat + used)
    r0 := s.ncnt }

/-- The body of TLVNEWP (41_tlv_unit R150). -/
def tlvnewpBody (s : State) : Except Err State :=
  if wildcard s.a0 ∨ wordConstructed s.a0 then .error .badOperand
  else if s.a1.toNat + s.a2.toNat > s.tlen.toNat then .error .badOperand
  else if s.ncnt.toNat ≥ s.cfg.nodeCap ∨ s.vused.toNat + s.a2.toNat > s.cfg.valCap then .error .arenaFull
  else
    let v := s.tb.readRange s.a1.toNat s.a2.toNat
    .ok (s.newRoot ⟨tagOfWord s.a0, s.a2.toNat, .prim v, none⟩ s.a2.toNat)

/-- TLVNEWP (41_tlv_unit R150). -/
def execTlvnewp (s : State) : Host.Outcome State Fault Refusal := .next (s.complete (tlvnewpBody s))

/-- The body of TLVNEWC (41_tlv_unit R151). -/
def tlvnewcBody (s : State) : Except Err State :=
  if wildcard s.a0 ∨ wordConstructed s.a0 = false then .error .badOperand
  else if s.ncnt.toNat ≥ s.cfg.nodeCap then .error .arenaFull
  else .ok (s.newRoot ⟨tagOfWord s.a0, 0, .cons [], none⟩ 0)

/-- TLVNEWC (41_tlv_unit R151). -/
def execTlvnewc (s : State) : Host.Outcome State Fault Refusal := .next (s.complete (tlvnewcBody s))

/-- The arena after the value of the node `x` was replaced and the lengths of its ancestors restored (41_tlv_unit R148,
R152). -/
def setValue (ns : List Node) (x : Nat) (v : List Byte) : List Node :=
  let ns := updateNode ns x fun n => { n with body := .prim v, length := v.length }
  match parentOf ns x with
  | some p => relength ns p
  | none => ns

/-- The body of TLVSETV (41_tlv_unit R152). -/
def tlvsetvBody (s : State) : Except Err State :=
  match s.node s.a0 with
  | .error e => .error e
  | .ok n =>
    if n.body.isCons then .error .notPrimitive
    else if s.a1.toNat + s.a2.toNat > s.tlen.toNat then .error .badOperand
    else if s.vused.toNat - n.length + s.a2.toNat > s.cfg.valCap then .error .arenaFull
    else .ok { s with
      nodes := setValue s.nodes s.a0.toNat (s.tb.readRange s.a1.toNat s.a2.toNat)
      vused := BitVec.ofNat 32 (s.vused.toNat - n.length + s.a2.toNat) }

/-- TLVSETV (41_tlv_unit R152). -/
def execTlvsetv (s : State) : Host.Outcome State Fault Refusal := .next (s.complete (tlvsetvBody s))

/-- The body of TLVGET (41_tlv_unit R153). -/
def tlvgetBody (s : State) : Except Err State :=
  match s.node s.a0 with
  | .error e => .error e
  | .ok n => .ok { s with
      r0 := wordOfTag n.tag
      r1 := BitVec.ofNat 32 n.length
      r2 := wordOfId n.parent
      r3 := BitVec.ofNat 32 n.children.length }

/-- TLVGET (41_tlv_unit R153). -/
def execTlvget (s : State) : Host.Outcome State Fault Refusal := .next (s.complete (tlvgetBody s))

/-- The body of TLVGETV (41_tlv_unit R154). -/
def tlvgetvBody (s : State) : Except Err State :=
  match s.node s.a0 with
  | .error e => .error e
  | .ok n => if n.body.isCons then .error .notPrimitive else s.emit n.value

/-- TLVGETV (41_tlv_unit R154). -/
def execTlvgetv (s : State) : Host.Outcome State Fault Refusal := .next (s.complete (tlvgetvBody s))

/-- TLVCLR (41_tlv_unit R160): every node is freed; the command cannot fail. -/
def execTlvclr (s : State) : Host.Outcome State Fault Refusal :=
  .next ({ s with nodes := [], ncnt := 0#32, vused := 0#32 }).finish

end Sys2Proof.Machine
end

