-- ==== Sys2Proof/Machine/Dispatch.lean ====
section
/-! DEFINITION. One arm per instruction. -/

namespace Sys2Proof.Machine

def exec (i : Instr) (s : State) : Host.Outcome State Fault Refusal :=
  match i with
  | .nop => Sys2Proof.Machine.execNop s
  | .srst => Sys2Proof.Machine.execSrst s
  | .tagdec => Sys2Proof.Machine.execTagdec s
  | .tagenc => Sys2Proof.Machine.execTagenc s
  | .lendec => Sys2Proof.Machine.execLendec s
  | .lenenc => Sys2Proof.Machine.execLenenc s
  | .tlvparse => Sys2Proof.Machine.execTlvparse s
  | .tlvparseat => Sys2Proof.Machine.execTlvparseat s
  | .tlvser => Sys2Proof.Machine.execTlvser s
  | .tlvfind => Sys2Proof.Machine.execTlvfind s
  | .tlvappend => Sys2Proof.Machine.execTlvappend s
  | .tlvnewp => Sys2Proof.Machine.execTlvnewp s
  | .tlvnewc => Sys2Proof.Machine.execTlvnewc s
  | .tlvsetv => Sys2Proof.Machine.execTlvsetv s
  | .tlvget => Sys2Proof.Machine.execTlvget s
  | .tlvgetv => Sys2Proof.Machine.execTlvgetv s
  | .tlvclr => Sys2Proof.Machine.execTlvclr s
  | .t1mki => Sys2Proof.Machine.execT1mki s
  | .t1mkr => Sys2Proof.Machine.execT1mkr s
  | .t1mks => Sys2Proof.Machine.execT1mks s
  | .t1parse => Sys2Proof.Machine.execT1parse s
  | .t1edc => Sys2Proof.Machine.execT1edc s
  | .t1open => Sys2Proof.Machine.execT1open s
  | .t1xmit => Sys2Proof.Machine.execT1xmit s
  | .pcbI ns more ignored => Sys2Proof.Machine.execPcbI ns more ignored s
  | .pcbR ignored nr err => Sys2Proof.Machine.execPcbR ignored nr err s
  | .pcbResynchRequest => Sys2Proof.Machine.execPcbResynchRequest s
  | .pcbResynchResponse => Sys2Proof.Machine.execPcbResynchResponse s
  | .pcbIfsRequest => Sys2Proof.Machine.execPcbIfsRequest s
  | .pcbIfsResponse => Sys2Proof.Machine.execPcbIfsResponse s
  | .pcbAbortRequest => Sys2Proof.Machine.execPcbAbortRequest s
  | .pcbAbortResponse => Sys2Proof.Machine.execPcbAbortResponse s
  | .pcbWtxRequest => Sys2Proof.Machine.execPcbWtxRequest s
  | .pcbWtxResponse => Sys2Proof.Machine.execPcbWtxResponse s
  | .pcbVppStateErrorResponse => Sys2Proof.Machine.execPcbVppStateErrorResponse s

end Sys2Proof.Machine
end

