-- ==== Sys2Proof/Machine/HostPort.lean ====
section
/-! DEFINITION. The events of the environment: HOST accesses to registers and buffers (44_system R220, R223 to R225,
70_reset R266), the hardware reset input (70_reset R260) and answers of the LINE; and the placing of an octet where the
next step takes it. -/

namespace Sys2Proof.Machine

/-- The value of register `n`, zero-extended to 32 bits; a reserved number reads 0 (10_state R21, 44_system R223). -/
def State.readReg (s : State) : Nat → Word
  | 0 => s.cmd.setWidth 32
  | 1 => s.status
  | 2 => s.err.setWidth 32
  | 3 => s.subErr.setWidth 32
  | 4 => s.a0
  | 5 => s.a1
  | 6 => s.a2
  | 7 => s.a3
  | 8 => s.r0
  | 9 => s.r1
  | 10 => s.r2
  | 11 => s.r3
  | 12 => s.tlen
  | 13 => s.ncnt
  | 14 => s.vused
  | 15 => s.dlen.setWidth 32
  | 16 => s.flen.setWidth 32
  | 17 => s.edcMode.setWidth 32
  | 18 => s.haddr.setWidth 32
  | 19 => s.daddr.setWidth 32
  | 20 => s.bwt
  | 21 => s.sseq.setWidth 32
  | 22 => s.rseq.setWidth 32
  | 23 => s.ifs.setWidth 32
  | 24 => s.ls0len.setWidth 32
  | 25 => s.ls1len.setWidth 32
  | 26 => s.xcnt
  | _ => 0#32

/-- A HOST write to register `n` other than CMD (10_state R21, 44_system R223): the low bits that fit are stored, a TLEN
above `TB_CAP` and a FLEN above `FB_CAP` are ignored whole, a read-only or reserved register ignores the write. -/
def State.writeReg (s : State) (n : Nat) (v : Word) : State :=
  match n with
  | 4 => { s with a0 := v }
  | 5 => { s with a1 := v }
  | 6 => { s with a2 := v }
  | 7 => { s with a3 := v }
  | 12 => if v.toNat > s.cfg.tbCap then s else { s with tlen := v }
  | 15 => { s with dlen := v.setWidth 16 }
  | 16 => if v.toNat > fbCap then s else { s with flen := v.setWidth 16 }
  | 17 => { s with edcMode := v.setWidth 1 }
  | 18 => { s with haddr := v.setWidth 3 }
  | 19 => { s with daddr := v.setWidth 3 }
  | 20 => { s with bwt := v }
  | _ => s

/-- A HOST read of one buffer octet; at or beyond the size of the space it reads 0 (44_system R225). -/
def State.readByte (s : State) (sp : Space) (off : Nat) : Byte :=
  if off < s.spaceSize sp then (s.space sp).read off else 0#8

/-- A HOST write of one buffer octet; LS0, LS1 and offsets at or beyond the size ignore it (44_system R225). -/
def State.writeByte (s : State) (sp : Space) (off : Nat) (b : Byte) : State :=
  if off < s.spaceSize sp then
    match sp with
    | .tb => { s with tb := s.tb.write off b }
    | .db => { s with db := s.db.write off b }
    | .fb => { s with fb := s.fb.write off b }
    | .ls0 => s
    | .ls1 => s
  else s

/-- A HOST write of `v` to CMD while BUSY is 0 (44_system R220): the command of the low octet starts; a code that names
none ends at once with IllegalCommand (44_system R224). -/
def State.writeCmd (s : State) (v : Word) : Arrival :=
  let c := v.setWidth 8
  match decodeCommand c with
  | .ok i => .run i (s.start c)
  | .error _ => .settled ((s.start c).raise .illegalCommand)

/-- What a HOST read returns (70_reset R266): while BUSY is 1, STATUS reads true and everything else 0. -/
def State.hostReads (s : State) : Access → Option Word
  | .readReg n => some (if s.busy && n != 1 then 0#32 else s.readReg n)
  | .readByte sp off => some (if s.busy then 0#32 else (s.readByte sp off).setWidth 32)
  | .writeReg _ _ => none
  | .writeByte _ _ _ => none

/-- One HOST access (20_memory R65, R68). While BUSY is 1 no write has an effect (70_reset R266). A read changes nothing
but the model's record of what it returned (log entry 9). -/
def State.hostAccess (s : State) (a : Access) : Arrival :=
  match a with
  | .writeReg n v =>
    if s.busy then .settled s
    else if n = 0 then s.writeCmd v
    else .settled (s.writeReg n v)
  | .writeByte sp off b => if s.busy then .settled s else .settled (s.writeByte sp off b)
  | .readReg n => .settled { s with hostData := ((s.hostReads (.readReg n)).getD 0#32) }
  | .readByte sp off => .settled { s with hostData := ((s.hostReads (.readByte sp off)).getD 0#32) }

/-- One event reaches the engine. The hardware reset also abandons a command that runs (70_reset R260). -/
def State.arrive (s : State) (e : Input) : Arrival :=
  match e with
  | .host a => s.hostAccess a
  | .line a => s.receive a
  | .hardReset => .settled s.resetArch

/-- The engine idle: BUSY clear and no command waiting, as a write of CMD needs (44_system R220). -/
def State.madeIdle (s : State) : State :=
  { s with status := if s.busy then 0#32 else s.status, work := none }

/-- The job and outbound frame under which a PCB octet runs its own arm: a T1OPEN that waits for the RESYNCH_RESPONSE or
the IFS_RESPONSE the octet is, else a T1XMIT. -/
def State.workFor (s : State) (i : Instr) : Work :=
  if i = .pcbResynchResponse then ⟨.opening 1 .resynch, s.cfg.retryBudget, s.resynchFrame, []⟩
  else if i = .pcbIfsResponse then ⟨.opening 1 .ifs, s.cfg.retryBudget, s.ifsFrame, []⟩
  else
    let head := frameHead s.haddr s.daddr (pcbI s.sseq) []
    ⟨.xmit, s.cfg.retryBudget, head ++ [lrc head], []⟩

/-- The data field of the answer that carries a PCB octet: one octet for an IFS_RESPONSE, else none. -/
def replyData (i : Instr) : List Byte := if i = .pcbIfsResponse then [0x20#8] else []

/-- A well-formed answer with the PCB octet `b`. -/
def replyFrame (i : Instr) (b : Byte) : List Byte :=
  let head := frameHead 0#3 0#3 b (replyData i)
  head ++ [lrc head]

/-- The instruction `i`, whose octet is `b`, placed where the next step takes it (log entry 10): a command as the next
HOST write of CMD to an idle engine; a PCB octet as the next answer to a T=1 command that waits. -/
def State.placeOctet (s : State) (i : Instr) (b : Byte) : State :=
  match i.format with
  | .cmd =>
    let s := if s.busy then s.madeIdle else s
    { s with inputs := .host (.writeReg 0 (b.setWidth 32)) :: s.inputs }
  | .pcb =>
    { s with
      status := statusBusy
      work := some (s.work.getD (s.workFor i))
      inputs := .line (.ok (replyFrame i b)) :: s.inputs }

/-- The same for a table word: the octet of its first eight bits; an octet that is no instruction is written to CMD. -/
def State.placeTableOctet (s : State) (b : Byte) : State :=
  s.placeOctet ((decodeTableOctet b).getD .nop) b

end Sys2Proof.Machine
end

