-- ==== Sys2Proof/Machine/Step.lean ====
section
/-! DEFINITION. One step: the next event of the environment reaches the engine, and the instruction it starts, if any,
runs. There is no program counter and no fetch (10_state R22); the order of commands is the order of the events. -/

namespace Sys2Proof.Machine

/-- What an event comes to, as an outcome. -/
def Arrival.outcome : Arrival → Host.Outcome State Fault Refusal
  | .settled s => .next s
  | .run i s => exec i s

/-- One step (log entry 1). With no event in store an idle engine stays idle (70_reset R261) and a waiting one keeps
waiting (70_reset R271); log entry 8. -/
def step (s : State) : Host.Outcome State Fault Refusal :=
  match s.inputs with
  | [] => .next s
  | e :: rest => (({ s with inputs := rest }).arrive e).outcome

/-- The instruction of a table word placed as the next event (log entry 10). -/
def State.withFetchWord (s : State) (nbits w : Nat) : State :=
  if nbits < 8 then s else s.placeTableOctet (tableOctet w)

end Sys2Proof.Machine
end

