-- ==== Sys2Proof/WellFormed.lean ====
section
/-! DEFINITION. Checks on terms: which configurations 00_scope R4, R5 and 30_encoding R100 admit, and which
instruction octets the hardware itself may build (30_encoding R96, R97, R105). Every operand of `Instr` has the width of
its field, so every term encodes; an octet the hardware never builds can still be received. -/

namespace Sys2Proof

/-- 30_encoding R100: a model "may rely only on the nine values being distinct 6-bit numbers". -/
abbrev SCode.WellFormed (c : SCode) : Prop := c.codes.Nodup

/-- The constraints of 00_scope R4 and R5. DEDUCED: `tbCap < 2 ^ 32`, since TLEN is a 32-bit count up to `TB_CAP`
(10_state R21); log entry 16; safe. -/
structure Config.WellFormed (c : Config) : Prop where
  scode : c.scode.WellFormed
  tbCap_min : 16 ≤ c.tbCap
  tbCap_fits : c.tbCap < 2 ^ 32
  nodeCap_min : 1 ≤ c.nodeCap
  depthMax_min : 1 ≤ c.depthMax
  lengths_fit : c.valCap + 10 * c.nodeCap < 2 ^ 32

/-- The same constraints as a Boolean test. -/
def Config.wf (c : Config) : Bool :=
  decide c.scode.WellFormed && decide (16 ≤ c.tbCap) && decide (c.tbCap < 2 ^ 32) && decide (1 ≤ c.nodeCap)
    && decide (1 ≤ c.depthMax) && decide (c.valCap + 10 * c.nodeCap < 2 ^ 32)

/-- The octets the hardware builds: every command; an I-block PCB with the more-data bit clear and bits 4 to 0 zero
(30_encoding R96); an R-block PCB with bit 5 zero and an error code of NONE, EDC or OTHER (30_encoding R97); every
S-block PCB of the nine codes (30_encoding R98). -/
def Instr.wellFormed : Instr → Bool
  | .nop => true
  | .srst => true
  | .tagdec => true
  | .tagenc => true
  | .lendec => true
  | .lenenc => true
  | .tlvparse => true
  | .tlvparseat => true
  | .tlvser => true
  | .tlvfind => true
  | .tlvappend => true
  | .tlvnewp => true
  | .tlvnewc => true
  | .tlvsetv => true
  | .tlvget => true
  | .tlvgetv => true
  | .tlvclr => true
  | .t1mki => true
  | .t1mkr => true
  | .t1mks => true
  | .t1parse => true
  | .t1edc => true
  | .t1open => true
  | .t1xmit => true
  | .pcbI _ more ignored => more == 0#1 && ignored == 0#5
  | .pcbR ignored _ err => ignored == 0#1 && decide (err.toNat ≤ 2)
  | .pcbResynchRequest => true
  | .pcbResynchResponse => true
  | .pcbIfsRequest => true
  | .pcbIfsResponse => true
  | .pcbAbortRequest => true
  | .pcbAbortResponse => true
  | .pcbWtxRequest => true
  | .pcbWtxResponse => true
  | .pcbVppStateErrorResponse => true

end Sys2Proof
end

