-- ==== Sys2Proof/Safety.lean ====
section
/-! DEFINITION. What the statements speak of: the invariants of the state, the errors each command may raise, the shape
of an encoder's effect, the encoding of a tree, internal_transmit as the recursion of 43_t1_protocol R192, and the
assumption under which T1OPEN and T1XMIT end (70_reset_and_hazards R271). -/

namespace Sys2Proof.Machine

/-- Every byte space in its canonical form and inside its size (20_memory R60). -/
structure State.MemoryInv (s : State) : Prop where
  tb_wf : s.tb.wf
  db_wf : s.db.wf
  fb_wf : s.fb.wf
  ls0_wf : s.ls0.wf
  ls1_wf : s.ls1.wf
  tb_fits : ∀ c ∈ s.tb, c.1 < s.cfg.tbCap
  db_fits : ∀ c ∈ s.db, c.1 < dbCap
  fb_fits : ∀ c ∈ s.fb, c.1 < fbCap
  ls0_fits : ∀ c ∈ s.ls0, c.1 < lsCap
  ls1_fits : ∀ c ∈ s.ls1, c.1 < lsCap

/-- The ranges of the count registers (10_state R21, R29, R34, R36). DLEN may exceed `DB_CAP` (10_state R35). -/
structure State.CountInv (s : State) : Prop where
  tlen : s.tlen.toNat ≤ s.cfg.tbCap
  flen : s.flen.toNat ≤ fbCap
  ls0len : s.ls0len.toNat = 0 ∨ (4 ≤ s.ls0len.toNat ∧ s.ls0len.toNat ≤ lsCap)
  ls1len : s.ls1len.toNat = 0 ∨ (4 ≤ s.ls1len.toNat ∧ s.ls1len.toNat ≤ lsCap)

/-- The codes of 60_exceptions R231. -/
def errorCodes : List (BitVec 8) :=
  [0x10#8, 0x11#8, 0x12#8, 0x20#8, 0x21#8, 0x22#8, 0x23#8, 0x24#8, 0x25#8, 0x40#8, 0x41#8, 0x42#8, 0x43#8, 0x44#8,
    0x45#8, 0x46#8, 0x47#8, 0x48#8, 0x4F#8]

/-- The codes SUBERR may hold after InitFailed (60_exceptions R237). -/
def subErrorCodes : List (BitVec 8) := [0x21#8, 0x23#8, 0x12#8, 0x24#8, 0x25#8]

/-- STATUS, ERR and SUBERR as 10_state R24 and 60_exceptions R231, R237 say they stand between two steps: STATUS is 0
before the first command, 1 while a T=1 command waits, 2 after a success, 4 after an error; ERRF = 1 exactly when ERR is
not 0; SUBERR is 0 unless ERR is InitFailed. -/
structure State.StatusInv (s : State) : Prop where
  status : s.status = 0#32 ∨ s.status = statusBusy ∨ s.status = statusDone ∨ s.status = statusErrf
  errf : s.status = statusErrf ↔ s.err ≠ 0#8
  err : s.err = 0#8 ∨ s.err ∈ errorCodes
  subErr : s.subErr = 0#8 ∨ (s.err = Err.initFailed.code ∧ s.subErr ∈ subErrorCodes)
  busy : s.status = statusBusy ↔ s.work.isSome

/-- A frame `t1_parse` accepts in LRC mode (30_encoding R103). -/
abbrev GoodFrame (raw : List Byte) : Prop := (t1Parse 0#1 raw).isOk = true

/-- A well-formed I-block or R-block frame. -/
abbrev GoodIorR (raw : List Byte) : Prop := GoodFrame raw ∧ blockType (frameFields raw).pcb ≠ .S

/-- What 10_state R29 and R46 say of the last-sent slots and of the working storage: a slot is empty or holds one
complete I-block or R-block; a command that waits has a well-formed outbound frame and a retry counter from 1 to
`RETRY_BUDGET`; the outbound frame of T1XMIT is an I-block, an R-block or a WTX_RESPONSE (43_t1_protocol R202); the
attempt counter of T1OPEN is from 1 to `OPEN_ATTEMPTS`. -/
structure State.ProtocolInv (s : State) : Prop where
  scode : s.cfg.scode.WellFormed
  memory : s.MemoryInv
  counts : s.CountInv
  slot0 : s.ls0len = 0#16 ∨ GoodIorR (s.slot 0#1)
  slot1 : s.ls1len = 0#16 ∨ GoodIorR (s.slot 1#1)
  waiting : ∀ w ∈ s.work, GoodFrame w.out ∧ 1 ≤ w.retries ∧ w.retries ≤ s.cfg.retryBudget
  xmit : ∀ w ∈ s.work, w.job = .xmit →
    GoodIorR w.out ∨ (frameFields w.out).pcb = pcbS s.cfg.scode.wtxResponse
  opening : ∀ w ∈ s.work, ∀ a ph, w.job = .opening a ph → 1 ≤ a ∧ a ≤ s.cfg.openAttempts

/-- Following `parent` from `x` reaches a root within `k` nodes (10_state R39(b), (e)). -/
def climbs : Nat → List Node → Nat → Bool
  | 0, _, _ => false
  | k + 1, ns, x =>
    match ns[x]? with
    | none => false
    | some n =>
      match n.parent with
      | none => true
      | some p => climbs k ns p

/-- The children of the node with id `x`; none for no node. -/
def childrenOf (ns : List Node) (x : Nat) : List Nat :=
  match ns[x]? with
  | some n => n.children
  | none => []

/-- The arena invariants of 10_state R39, with R38's allocation. -/
structure State.ArenaInv (s : State) : Prop where
  cfg : s.cfg.WellFormed
  /-- R38: the allocated ids are exactly 0 .. NCNT-1. -/
  ncnt : s.ncnt.toNat = s.nodes.length
  capacity : s.nodes.length ≤ s.cfg.nodeCap
  /-- R39(a). -/
  kind : ∀ n ∈ s.nodes, n.body.isCons = n.tag.constructed
  /-- R39(b): child lists and parents name nodes, and agree. -/
  childIds : ∀ n ∈ s.nodes, ∀ c ∈ n.children, c < s.nodes.length
  parentIds : ∀ n ∈ s.nodes, ∀ p ∈ n.parent, p < s.nodes.length
  agree : ∀ p < s.nodes.length, ∀ c < s.nodes.length, c ∈ childrenOf s.nodes p ↔ parentOf s.nodes c = some p
  nodup : ∀ n ∈ s.nodes, n.children.Nodup
  /-- R39(b), (e): every path up ends at a root within `DEPTH_MAX` nodes. -/
  depth : ∀ x < s.nodes.length, climbs s.cfg.depthMax s.nodes x = true
  /-- R39(c). -/
  lengths : ∀ n ∈ s.nodes, n.length =
    match n.body with
    | .prim v => v.length
    | .cons kids => sizeSum s.nodes kids
  /-- R39(d). -/
  vused : s.vused.toNat = (s.nodes.map fun n => n.value.length).sum
  valCap : s.vused.toNat ≤ s.cfg.valCap

/-- All of them. -/
structure State.Inv (s : State) : Prop where
  status : s.StatusInv
  protocol : s.ProtocolInv
  arena : s.ArenaInv

/-- The errors a command may raise (60_exceptions R233). The PCB octets are no commands. -/
def errorsOf : Instr → List Err
  | .nop => []
  | .srst => []
  | .tagdec => [.malformedTag]
  | .tagenc => [.badOperand, .bufferOverflow]
  | .lendec => [.malformedTlv]
  | .lenenc => [.bufferOverflow]
  | .tlvparse => [.malformedTlv, .depthExceeded, .arenaFull]
  | .tlvparseat => [.malformedTlv, .depthExceeded, .arenaFull]
  | .tlvser => [.badNode, .bufferOverflow]
  | .tlvfind => [.badNode]
  | .tlvappend => [.badNode, .notConstructed, .depthExceeded]
  | .tlvnewp => [.badOperand, .arenaFull]
  | .tlvnewc => [.badOperand, .arenaFull]
  | .tlvsetv => [.badNode, .notPrimitive, .badOperand, .arenaFull]
  | .tlvget => [.badNode]
  | .tlvgetv => [.badNode, .notPrimitive, .bufferOverflow]
  | .tlvclr => []
  | .t1mki => [.notImplemented, .payloadTooLarge]
  | .t1mkr => [.notImplemented, .badOperand]
  | .t1mks => [.notImplemented, .badOperand, .payloadTooLarge]
  | .t1parse => [.notImplemented, .lengthMismatch, .edcError]
  | .t1edc => [.badOperand]
  | .t1open => [.notImplemented, .initFailed]
  | .t1xmit =>
    [.payloadTooLarge, .notImplemented, .tooManyRetries, .transportError, .lengthMismatch, .resendSlotEmpty,
      .unexpectedBlock]
  | .pcbI _ _ _ => []
  | .pcbR _ _ _ => []
  | .pcbResynchRequest => []
  | .pcbResynchResponse => []
  | .pcbIfsRequest => []
  | .pcbIfsResponse => []
  | .pcbAbortRequest => []
  | .pcbAbortResponse => []
  | .pcbWtxRequest => []
  | .pcbWtxResponse => []
  | .pcbVppStateErrorResponse => []

/-- The commands of the tag, TLV, block and system families, which are transactional (60_exceptions R235). -/
def transactional : List Instr :=
  [.nop, .srst, .tagdec, .tagenc, .lendec, .lenenc, .tlvparse, .tlvparseat, .tlvser, .tlvfind, .tlvappend, .tlvnewp,
    .tlvnewc, .tlvsetv, .tlvget, .tlvgetv, .tlvclr, .t1mki, .t1mkr, .t1mks, .t1parse, .t1edc]

/-- The octets of `m'` are `bs` from `off` on and those of `m` elsewhere. -/
def Stored (m m' : Memory) (off : Nat) (bs : List Byte) : Prop :=
  ∀ a, m'.read a = if off ≤ a ∧ a < off + bs.length then bs.getD (a - off) 0#8 else m.read a

/-- The effect of an encoder that appended `bs` (40_tag_len_unit R120): TB, TLEN, R0 and STATUS, and nothing else. -/
def Appended (s t : State) (bs : List Byte) : Prop :=
  Stored s.tb t.tb s.tlen.toNat bs ∧ t.tlen.toNat = s.tlen.toNat + bs.length ∧ t.r0.toNat = bs.length ∧
    t = { s with tb := t.tb, tlen := t.tlen, r0 := t.r0, status := statusDone }

/-- The state after an error of a transactional command (60_exceptions R235, R236). -/
def raised (s : State) (code : BitVec 8) : State := { s with err := code, subErr := 0#8, status := 4#32 }

mutual
/-- The encoding of a tree: tag, shortest length, then the value or the children in order (30_encoding R90). -/
def Tree.enc : Tree → List Byte
  | .prim t v => tagEncode t ++ lenEncode v.length ++ v
  | .cons t kids => tagEncode t ++ lenEncode (Tree.sizeList kids) ++ Tree.encList kids
/-- The concatenation of the encodings of a list of trees. -/
def Tree.encList : List Tree → List Byte
  | [] => []
  | t :: ts => t.enc ++ Tree.encList ts
end

mutual
/-- A tree the arena can hold at `levels` depths: body kinds follow the tags, contents fit a 32-bit length, and the
height is at most `levels` (10_state R37, R39(a), (e)). -/
def Tree.fits : Nat → Tree → Bool
  | 0, _ => false
  | _ + 1, .prim t v => !t.constructed && decide (v.length < 2 ^ 32)
  | levels + 1, .cons t kids => t.constructed && decide (Tree.sizeList kids < 2 ^ 32) && Tree.fitsList levels kids
/-- All trees of a list fit. -/
def Tree.fitsList : Nat → List Tree → Bool
  | _, [] => true
  | levels, t :: ts => Tree.fits levels t && Tree.fitsList levels ts
end

/-- How a call of internal_transmit ends: with the block it returns, with the error it raises, or not yet, for want of
an answer. -/
inductive Transmitted where
  | block (b : Block)
  | raised (e : Err)
  | blocked (out : List Byte) (retries : Nat)
deriving DecidableEq, Repr

/-- The R-block of arm EDC with destination `dst` (43_t1_protocol R196). -/
def nackFrame (src dst : BitVec 3) (rseq : BitVec 1) : List Byte :=
  frameHead src dst (pcbR rseq 1#4) [] ++ [lrc (frameHead src dst (pcbR rseq 1#4) [])]

/-- The WTX_RESPONSE of arm WTX (43_t1_protocol R195). -/
def wtxFrame (s : State) (dst : BitVec 3) (data : List Byte) : List Byte :=
  frameHead s.haddr dst (pcbS s.cfg.scode.wtxResponse) data ++
    [lrc (frameHead s.haddr dst (pcbS s.cfg.scode.wtxResponse) data)]

/-- `internal_transmit(r, out)` as the recursion of 43_t1_protocol R192 to R199 writes it, over the answers of the LINE:
the state it leaves, how it ended, and the answers not used. -/
def internalTransmit : Nat → List Byte → List Answer → State → State × Transmitted × List Answer
  | 0, _, as, s => (s, .raised .tooManyRetries, as)
  | r + 1, out, [], s => ({ s with xcnt := s.xcnt + 1 }, .blocked out (r + 1), [])
  | _ + 1, _, .fail :: as, s => ({ s with xcnt := s.xcnt + 1 }, .raised .transportError, as)
  | r + 1, out, .ok g :: as, s =>
    let s := { s with xcnt := s.xcnt + 1 }
    let dst := nadDst (out.getD 0 0#8)
    match t1Parse 0#1 (g.take fbCap) with
    | .error .edcError =>
      let rb := nackFrame s.haddr dst s.rseq
      let s := { s with sseq := s.sseq ^^^ 1#1 }
      internalTransmit r rb as (s.storeSlot s.sseq rb)
    | .error e => (s, .raised e, as)
    | .ok b =>
      if blockType b.pcb = .I then ({ s with rseq := s.rseq ^^^ 1#1 }, .block b, as)
      else if blockType b.pcb = .R then
        if s.slotLen (b.pcb.extractLsb' 4 1) = 0#16 then (s, .raised .resendSlotEmpty, as)
        else internalTransmit r (s.slot (b.pcb.extractLsb' 4 1)) as s
      else if pcbSCode b.pcb = s.cfg.scode.wtxRequest then internalTransmit r (wtxFrame s dst b.data) as s
      else if pcbSCode b.pcb = s.cfg.scode.resynchResponse ∧
          out.getD 1 0#8 = pcbS s.cfg.scode.resynchRequest then (s, .block b, as)
      else if pcbSCode b.pcb = s.cfg.scode.ifsResponse ∧
          out.getD 1 0#8 = pcbS s.cfg.scode.ifsRequest then (s, .block b, as)
      else
        match s.cfg.unknownReply with
        | .retrySame => internalTransmit r out as s
        | .fail => (s, .raised .unexpectedBlock, as)

/-- Every octet of a list combined by exclusive or, first octet first (30_encoding R94). -/
def xorAll (bs : List Byte) : Byte := bs.foldl (fun acc b => acc ^^^ b) 0#8

/-- A whole frame `NAD PCB LEN DATA EDC` from numbers (30_encoding R91, R92, R94, R102). -/
def frameOf (src dst pcb : Nat) (data : List Byte) : List Byte :=
  let head := BitVec.ofNat 8 (dst * 16 + src) :: BitVec.ofNat 8 pcb :: BitVec.ofNat 8 data.length :: data
  head ++ [xorAll head]

/-- `NAD | (PCB << 8) | (LEN << 16) | (EDC << 24)` of a frame, its EDC being its last octet (42_t1_block_unit R170). -/
def headerOf (raw : List Byte) : Word :=
  BitVec.ofNat 32 ((raw.getD 0 0#8).toNat + (raw.getD 1 0#8).toNat * 2 ^ 8 + (raw.getD 2 0#8).toNat * 2 ^ 16 +
    (raw.getLastD 0#8).toNat * 2 ^ 24)

/-- The octets `b o, b (o + 1), …`, `n` of them (00_scope R10). -/
def octetsAt (b : Nat → Byte) (o n : Nat) : List Byte := (List.range n).map fun i => b (o + i)

/-- The number that `k` base-128 groups from `o` on give, most significant first (30_encoding R84). -/
def groupValue (b : Nat → Byte) (o : Nat) : Nat → Nat
  | 0 => 0
  | k + 1 => groupValue b o k * 128 + (b (o + k)).toNat % 128

/-- The number that `k` octets from `o` on give, most significant first (30_encoding R87). -/
def octetValue (b : Nat → Byte) (o : Nat) : Nat → Nat
  | 0 => 0
  | k + 1 => octetValue b o k * 256 + (b (o + k)).toNat

/-- The TagWord of class, constructed flag and number (30_encoding R82). -/
def tagWordOf (cls constructed number : Nat) : Word := BitVec.ofNat 32 (constructed * 2 ^ 30 + cls * 2 ^ 28 + number)

/-- The octets `tag_encode` gives for the Tag of a TagWord, size by size (30_encoding R83, R84, R86). -/
def tagOctets (w : Word) : List Byte :=
  let n := w.toNat % 2 ^ 28
  let lead := w.toNat / 2 ^ 28 % 4 * 64 + w.toNat / 2 ^ 30 % 2 * 32
  let octet (v : Nat) : Byte := BitVec.ofNat 8 v
  if n < 0x1F then [octet (lead + n)]
  else if n < 0x80 then [octet (lead + 0x1F), octet n]
  else if n < 0x4000 then [octet (lead + 0x1F), octet (0x80 + n / 2 ^ 7), octet (n % 2 ^ 7)]
  else if n < 0x200000 then
    [octet (lead + 0x1F), octet (0x80 + n / 2 ^ 14), octet (0x80 + n / 2 ^ 7 % 2 ^ 7), octet (n % 2 ^ 7)]
  else
    [octet (lead + 0x1F), octet (0x80 + n / 2 ^ 21), octet (0x80 + n / 2 ^ 14 % 2 ^ 7),
      octet (0x80 + n / 2 ^ 7 % 2 ^ 7), octet (n % 2 ^ 7)]

/-- The octets `len_encode` gives for a length below 2^32, size by size (30_encoding R88). -/
def lengthOctets (l : Nat) : List Byte :=
  let octet (v : Nat) : Byte := BitVec.ofNat 8 v
  if l < 0x80 then [octet l]
  else if l < 0x100 then [0x81#8, octet l]
  else if l < 0x10000 then [0x82#8, octet (l / 2 ^ 8), octet (l % 2 ^ 8)]
  else if l < 0x1000000 then [0x83#8, octet (l / 2 ^ 16), octet (l / 2 ^ 8 % 2 ^ 8), octet (l % 2 ^ 8)]
  else
    [0x84#8, octet (l / 2 ^ 24), octet (l / 2 ^ 16 % 2 ^ 8), octet (l / 2 ^ 8 % 2 ^ 8), octet (l % 2 ^ 8)]

/-- The loop of `tag_decode` with its cursor, written as 30_encoding R85 writes it; `fuel` is more than `lim - i`. -/
def cursorGroups (b : Nat → Byte) (lim : Nat) : Nat → Nat → Nat → Except Err (Nat × Nat)
  | 0, _, _ => .error .malformedTag
  | fuel + 1, n, i =>
    if lim ≤ i then .error .malformedTag
    else if 2 ^ 21 ≤ n then .error .malformedTag
    else if (b i).toNat < 128 then .ok (n * 128 + (b i).toNat, i + 1)
    else cursorGroups b lim fuel (n * 128 + (b i).toNat % 128) (i + 1)

/-- `tag_decode(b, o, lim)` with its cursor, as 30_encoding R85 writes it. -/
def cursorTag (b : Nat → Byte) (o lim : Nat) : Except Err (Tag × Nat) :=
  if lim ≤ o then .error .malformedTag
  else
    let f := (b o).toNat
    let cls := BitVec.ofNat 2 (f / 64)
    let constructed := f / 32 % 2 == 1
    if f % 32 ≠ 31 then .ok (⟨BitVec.ofNat 28 (f % 32), cls, constructed⟩, o + 1)
    else
      match cursorGroups b lim (lim + 1) 0 (o + 1) with
      | .error e => .error e
      | .ok (n, i) => .ok (⟨BitVec.ofNat 28 n, cls, constructed⟩, i)

/-- `len_decode(b, o, lim)` with its cursor, as 30_encoding R87 writes it. -/
def cursorLen (b : Nat → Byte) (o lim : Nat) : Except Err (Nat × Nat) :=
  if lim ≤ o then .error .malformedTlv
  else if (b o).toNat < 128 then .ok ((b o).toNat, o + 1)
  else
    let k := (b o).toNat - 128
    if k = 0 ∨ 4 < k then .error .malformedTlv
    else if lim < o + 1 + k then .error .malformedTlv
    else .ok (octetValue b (o + 1) k, o + 1 + k)

mutual
/-- `parse_node(b, o, lim, d)` with its cursor, as 41_tlv_unit R141 writes it; `fuel` is more than `lim - o`. -/
def cursorNode (b : Nat → Byte) (depthMax : Nat) : Nat → Nat → Nat → Nat → Except Err (Tree × Nat)
  | 0, _, _, _ => .error .malformedTlv
  | fuel + 1, o, lim, d =>
    if depthMax < d then .error .depthExceeded
    else
      match cursorTag b o lim with
      | .error _ => .error .malformedTlv
      | .ok (t, o1) =>
        match cursorLen b o1 lim with
        | .error e => .error e
        | .ok (l, o2) =>
          if lim < o2 + l then .error .malformedTlv
          else if t.constructed then
            match cursorKids b depthMax fuel o2 (o2 + l) (d + 1) with
            | .error e => .error e
            | .ok kids => .ok (.cons t kids, o2 + l)
          else .ok (.prim t (octetsAt b o2 l), o2 + l)
/-- The loop of `parse_node` over the children, from the cursor `p` to the end `fin` of the content. -/
def cursorKids (b : Nat → Byte) (depthMax : Nat) : Nat → Nat → Nat → Nat → Except Err (List Tree)
  | 0, _, _, _ => .error .malformedTlv
  | fuel + 1, p, fin, d =>
    if fin ≤ p then .ok []
    else
      match cursorNode b depthMax fuel p fin d with
      | .error e => .error e
      | .ok (k, p') =>
        match cursorKids b depthMax fuel p' fin d with
        | .error e => .error e
        | .ok ks => .ok (k :: ks)
end

/-- What a parse from offset `o` leaves: the error of the descent, ArenaFull, or the nodes stored in pre-order with R0
the id of the root and R1 the new offset (41_tlv_unit R142 to R144). -/
def parsedFrom (s : State) (o : Nat) : State :=
  match cursorNode s.tb.read s.cfg.depthMax (s.tlen.toNat + 2) o s.tlen.toNat 1 with
  | .error e => raised s e.code
  | .ok (tree, o') =>
    if s.cfg.nodeCap < s.ncnt.toNat + tree.count ∨ s.cfg.valCap < s.vused.toNat + tree.valueBytes then
      raised s 0x46#8
    else { s with
      nodes := s.nodes ++ tree.records s.ncnt.toNat none
      ncnt := BitVec.ofNat 32 (s.ncnt.toNat + tree.count)
      vused := BitVec.ofNat 32 (s.vused.toNat + tree.valueBytes)
      r0 := s.ncnt
      r1 := BitVec.ofNat 32 o'
      status := 2#32 }

/-- The tag of the node with id `x`. -/
def tagAt (ns : List Node) (x : Nat) : Option Tag := ns[x]?.map (·.tag)

/-- The length of the node with id `x`. -/
def lengthAt (ns : List Node) (x : Nat) : Option Nat := ns[x]?.map (·.length)

/-- The value octets of the node with id `x`. -/
def valueAt (ns : List Node) (x : Nat) : Option (List Byte) := ns[x]?.map (·.value)

/-- The Tag a TagWord names, from numbers (30_encoding R82). -/
def tagNamed (w : Word) : Tag :=
  ⟨BitVec.ofNat 28 (w.toNat % 2 ^ 28), BitVec.ofNat 2 (w.toNat / 2 ^ 28 % 4), w.toNat / 2 ^ 30 % 2 == 1⟩

/-- Every node has the length of 10_state R39(c). -/
def LengthsRight (ns : List Node) : Prop :=
  ∀ n ∈ ns, n.length =
    match n.body with
    | .prim v => v.length
    | .cons kids => sizeSum ns kids

/-- The answers of the LINE that stand first among the events, and the events after them. -/
def answersFirst : List Input → List Answer × List Input
  | .line a :: rest => (a :: (answersFirst rest).1, (answersFirst rest).2)
  | es => ([], es)

/-- Answers and later events as one list of events. -/
def eventsOf (as : List Answer) (rest : List Input) : List Input := as.map Input.line ++ rest

/-- What T1XMIT leaves after its tests, given how its internal_transmit ended (43_t1_protocol R202 to R204). -/
def xmitAfter (rest : List Input) : State × Transmitted × List Answer → State
  | (s, .block b, as) => { s with
      sseq := if s.cfg.sendSeqAdvance then s.sseq ^^^ 1#1 else s.sseq
      db := s.db.writeRange 0 b.data
      dlen := BitVec.ofNat 16 b.data.length
      r0 := headerWord b.nad b.pcb b.len b.edc
      r1 := addressWord (nadSrc b.nad) (nadDst b.nad) 0#2
      status := 2#32
      inputs := eventsOf as rest }
  | (s, .raised e, as) => { s with err := e.code, subErr := 0#8, status := 4#32, inputs := eventsOf as rest }
  | (s, .blocked out r, as) =>
    { s with status := 1#32, work := some ⟨.xmit, r, out, []⟩, inputs := eventsOf as rest }

/-- T1OPEN after its mode test, as 43_t1_protocol R200 and R201 write it: `left` attempts are left, `last` is the code of
the error that ended the attempt before. -/
def openAttemptsFrom (rest : List Input) : Nat → BitVec 8 → List Answer → State → State
  | 0, last, as, s => { s with err := 0x22#8, subErr := last, status := 4#32, inputs := eventsOf as rest }
  | left + 1, _, as, s =>
    let a := s.cfg.openAttempts - left
    let resynch := frameOf s.haddr.toNat s.daddr.toNat (0xC0 + s.cfg.scode.resynchRequest.toNat) []
    match internalTransmit s.cfg.retryBudget resynch as s with
    | (s, .raised e, as) => openAttemptsFrom rest left e.code as s
    | (s, .blocked out r, as) =>
      { s with status := 1#32, work := some ⟨.opening a .resynch, r, out, []⟩, inputs := eventsOf as rest }
    | (s, .block b, as) =>
      if blockType b.pcb = .S ∧ pcbSCode b.pcb = s.cfg.scode.resynchResponse then
        let s := { s with sseq := 0#1, rseq := 0#1 }
        let ifs := frameOf s.haddr.toNat s.daddr.toNat (0xC0 + s.cfg.scode.ifsRequest.toNat) [s.cfg.ifsDefault]
        match internalTransmit s.cfg.retryBudget ifs as s with
        | (s, .raised e, as) => openAttemptsFrom rest left e.code as s
        | (s, .blocked out r, as) =>
          { s with status := 1#32, work := some ⟨.opening a .ifs, r, out, []⟩, inputs := eventsOf as rest }
        | (s, .block b, as) =>
          if blockType b.pcb = .S ∧ pcbSCode b.pcb = s.cfg.scode.ifsResponse ∧ b.len = 1#8 then
            { s with ifs := b.data.getD 0 0#8, status := 2#32, inputs := eventsOf as rest }
          else openAttemptsFrom rest left 0x25#8 as s
      else openAttemptsFrom rest left 0x25#8 as s

/-- Feed events one at a time, each to an engine with no other event in store. -/
def feed : List Input → State → Host.Outcome State Fault Refusal
  | [], s => .next s
  | e :: es, s =>
    match step { s with inputs := [e] } with
    | .next t => feed es t
    | .fault f => .fault f
    | .refused r => .refused r

/-- The T=1 half of `s` replaced by that of `u`: session, DB, FB, slots and working storage (10_state sections 4, 5). -/
def State.withT1Of (s u : State) : State :=
  { s with
    dlen := u.dlen, flen := u.flen, edcMode := u.edcMode, haddr := u.haddr, daddr := u.daddr, bwt := u.bwt
    sseq := u.sseq, rseq := u.rseq, ifs := u.ifs, ls0len := u.ls0len, ls1len := u.ls1len, xcnt := u.xcnt
    db := u.db, fb := u.fb, ls0 := u.ls0, ls1 := u.ls1, work := u.work }

/-- The BER-TLV half of `s` replaced by that of `u`: TB, TLEN and the arena (10_state sections 5, 6). -/
def State.withTlvOf (s u : State) : State :=
  { s with tlen := u.tlen, ncnt := u.ncnt, vused := u.vused, tb := u.tb, nodes := u.nodes }

/-- The commands of the BER-TLV half (30_encoding R81). -/
def tlvHalf : List Instr :=
  [.tagdec, .tagenc, .lendec, .lenenc, .tlvparse, .tlvparseat, .tlvser, .tlvfind, .tlvappend, .tlvnewp, .tlvnewc,
    .tlvsetv, .tlvget, .tlvgetv, .tlvclr]

/-- The commands of the T=1 half (30_encoding R81). -/
def t1Half : List Instr := [.t1mki, .t1mkr, .t1mks, .t1parse, .t1edc, .t1open, .t1xmit]

/-- One bit of one octet of a frame inverted. -/
def flipBit (raw : List Byte) (j k : Nat) : List Byte := raw.set j (raw.getD j 0#8 ^^^ BitVec.ofNat 8 (2 ^ k))

/-- The values of registers 0 to 26, each zero-extended to 32 bits (10_state R21). -/
def registerValues (s : State) : List Word :=
  [s.cmd.setWidth 32, s.status, s.err.setWidth 32, s.subErr.setWidth 32, s.a0, s.a1, s.a2, s.a3, s.r0, s.r1, s.r2, s.r3,
    s.tlen, s.ncnt, s.vused, s.dlen.setWidth 32, s.flen.setWidth 32, s.edcMode.setWidth 32, s.haddr.setWidth 32,
    s.daddr.setWidth 32, s.bwt, s.sseq.setWidth 32, s.rseq.setWidth 32, s.ifs.setWidth 32, s.ls0len.setWidth 32,
    s.ls1len.setWidth 32, s.xcnt]

/-- The size of a byte space under 20_memory R60. -/
def sizeOfSpace (s : State) : Space → Nat
  | .tb => s.cfg.tbCap
  | .db => 256
  | .fb => 259
  | .ls0 => 258
  | .ls1 => 258

/-- Every register but CMD and STATUS, every octet, the arena and the working storage at the value of 10_state R47. -/
structure AtReset (s : State) : Prop where
  errors : s.err = 0#8 ∧ s.subErr = 0#8
  operands : s.a0 = 0#32 ∧ s.a1 = 0#32 ∧ s.a2 = 0#32 ∧ s.a3 = 0#32
  results : s.r0 = 0#32 ∧ s.r1 = 0#32 ∧ s.r2 = 0#32 ∧ s.r3 = 0#32
  tlv : s.tlen = 0#32 ∧ s.ncnt = 0#32 ∧ s.vused = 0#32 ∧ s.nodes = []
  octets : ∀ a, s.tb.read a = 0#8 ∧ s.db.read a = 0#8 ∧ s.fb.read a = 0#8 ∧ s.ls0.read a = 0#8 ∧ s.ls1.read a = 0#8
  lengths : s.dlen = 0#16 ∧ s.flen = 0#16 ∧ s.ls0len = 0#16 ∧ s.ls1len = 0#16
  mode : s.edcMode = 0#1
  addresses : s.haddr = s.cfg.haddrReset ∧ s.daddr = s.cfg.daddrReset
  session : s.bwt = s.cfg.bwtReset ∧ s.sseq = 0#1 ∧ s.rseq = 0#1 ∧ s.ifs = s.cfg.ifsDefault ∧ s.xcnt = 0#32
  idle : s.work = none

/-- Whether an event is an answer of the LINE. -/
def Input.isAnswer : Input → Bool
  | .line _ => true
  | .host _ => false
  | .hardReset => false

/-- The most exchange calls a command can make after the running internal_transmit has ended: none for T1XMIT, for T1OPEN
those of the rest of its attempt and of the attempts that are left (43_t1_protocol R200, R201, R205). -/
def Job.exchangesAfter (c : Config) : Job → Nat
  | .xmit => 0
  | .opening a .resynch => c.retryBudget + (c.openAttempts - a) * (2 * c.retryBudget)
  | .opening a .ifs => (c.openAttempts - a) * (2 * c.retryBudget)

/-- The most exchange calls that a waiting command can still see return, the one it waits for among them. -/
def Work.exchangesLeft (c : Config) (w : Work) : Nat := max 1 w.retries + w.job.exchangesAfter c

/-- The most exchange calls a command can make from its start (43_t1_protocol R205). -/
def exchangesOf (c : Config) : Instr → Nat
  | .t1xmit => c.retryBudget
  | .t1open => c.openAttempts * (2 * c.retryBudget)
  | _ => 0

/-- THE ASSUMPTION under which 70_reset_and_hazards R271 lets a model state that T1OPEN and T1XMIT end (log entry 21):
every `exchange` call returns. The events bring an answer, a frame or a failure, for each of the `n` calls a command can
make, in among any HOST accesses, and no hardware reset comes instead. -/
def ExchangesReturn (n : Nat) (es : List Input) : Prop := n ≤ es.countP Input.isAnswer ∧ Input.hardReset ∉ es

/-- A command has ended, without error or with one, and nothing waits (44_system R220, 60_exceptions R236). -/
def State.Ended (t : State) : Prop := t.work = none ∧ (t.status = 2#32 ∨ t.status = 4#32)

/-- `n` steps one after the other. -/
def run : Nat → State → Host.Outcome State Fault Refusal
  | 0, s => .next s
  | n + 1, s =>
    match step s with
    | .next t => run n t
    | .fault f => .fault f
    | .refused r => .refused r

end Sys2Proof.Machine
end

