-- ==== Sys2Proof/Certificates/Slice0/Obligations.lean ====
section
/-! DEFINITION. The statements for the provers, in the order of the layers: encodings, steps and HOST accesses, the
commands family by family, the arms of internal_transmit, whole-machine rules, invariants. -/

section

open Sys2Proof Sys2Proof.Machine

/-- 30_encoding R81: the 24 codes and what each names; no other code names a command. -/
def Obligations.CommandWordsDecode : Prop :=
  ∀ (c : Byte) (i : Instr), decodeCommand c = .ok i ↔ (c, i) ∈ ([
    (0x00#8, .nop), (0x01#8, .srst),
    (0x10#8, .tagdec), (0x11#8, .tagenc), (0x12#8, .lendec), (0x13#8, .lenenc),
    (0x20#8, .tlvparse), (0x21#8, .tlvparseat), (0x22#8, .tlvser), (0x23#8, .tlvfind), (0x24#8, .tlvappend),
    (0x25#8, .tlvnewp), (0x26#8, .tlvnewc), (0x27#8, .tlvsetv), (0x28#8, .tlvget), (0x29#8, .tlvgetv),
    (0x2A#8, .tlvclr),
    (0x30#8, .t1mki), (0x31#8, .t1mkr), (0x32#8, .t1mks), (0x33#8, .t1parse), (0x34#8, .t1edc),
    (0x40#8, .t1open), (0x41#8, .t1xmit)] : List (Byte × Instr))

/-- A sanity statement: octets written out from 30_encoding R81 and R96 to R100 decode to what they stand for. The
S-block octets are those of the table `SCode.standard`, which the spec marks as general knowledge (log entry 4). -/
def Obligations.OctetsDecodeAsWritten : Prop :=
  decode SCode.standard .cmd [0x20#8, 0x41#8] = .ok (.tlvparse, [0x41#8]) ∧
  decode SCode.standard .cmd [0x34#8] = .ok (.t1edc, []) ∧
  decode SCode.standard .cmd [0x2B#8] = .error (.illegalCommand 0x2B#8) ∧
  decode SCode.standard .cmd [] = .error .noOctet ∧
  decode SCode.standard .pcb [0b01000000#8] = .ok (.pcbI 1#1 0#1 0#5, []) ∧
  decode SCode.standard .pcb [0b00101010#8] = .ok (.pcbI 0#1 1#1 0b01010#5, []) ∧
  decode SCode.standard .pcb [0b10010001#8] = .ok (.pcbR 0#1 1#1 1#4, []) ∧
  decode SCode.standard .pcb [0b11000000#8] = .ok (.pcbResynchRequest, []) ∧
  decode SCode.standard .pcb [0b11100011#8] = .ok (.pcbWtxResponse, []) ∧
  decode SCode.standard .pcb [0b11000100#8] = .error (.unknownSCode 4#6)

/-- Decoding what was encoded gives the instruction back, for every operand the octets admit and every table of nine
distinct codes (30_encoding R81, R95 to R100, R106). -/
def Obligations.DecodeEncodeAgree : Prop :=
  ∀ sc : SCode, sc.WellFormed → ∀ (i : Instr) (rest : List Byte),
    decode sc i.format (encode sc i ++ rest) = .ok (i, rest)

/-- An octet means one instruction of its format, and that instruction's octet is this one: no bit is dropped
(30_encoding R81, R95 to R98). -/
def Obligations.EncodeDecodeAgree : Prop :=
  ∀ (sc : SCode) (f : Format) (b : Byte) (i : Instr), decodeOctet sc f b = .ok i →
    i.format = f ∧ encodeOctet sc i = b

/-- 44_system R220: a HOST write to CMD while BUSY is 0 sets CMD to the low octet and STATUS to 1, clears ERR and
SUBERR, and the command of that code runs. -/
def Obligations.StepRunsDecodedCommand : Prop :=
  ∀ (s : State) (v : Word) (rest : List Input) (i : Instr), s.busy = false →
    s.inputs = .host (.writeReg 0 v) :: rest → decodeCommand (v.setWidth 8) = .ok i →
    step s = exec i { s with
      inputs := rest, cmd := v.setWidth 8, status := 1#32, err := 0#8, subErr := 0#8 }

/-- 43_t1_protocol R190 to R192: a frame that `t1_parse` accepts, received while a T=1 command waits, runs the
instruction its PCB decodes to, on the working storage that holds its octets, at most 259 of them. That a PCB octet is
an instruction is log entry 2. -/
def Obligations.StepRunsDecodedReply : Prop :=
  ∀ (s : State) (w : Work) (g : List Byte) (rest : List Input) (b : Block) (i : Instr), s.work = some w →
    s.inputs = .line (.ok g) :: rest → t1Parse 0#1 (g.take 259) = .ok b → decodePcb s.cfg.scode b.pcb = .ok i →
    step s = exec i { s with inputs := rest, work := some { w with rx := g.take 259 } }

/-- 44_system R224: a code outside the table ends at once with IllegalCommand, and nothing else changes. -/
def Obligations.StepEndsIllegalCommand : Prop :=
  ∀ (s : State) (v : Word) (rest : List Input), s.busy = false → s.inputs = .host (.writeReg 0 v) :: rest →
    v.setWidth 8 ∉ ([0x00#8, 0x01#8, 0x10#8, 0x11#8, 0x12#8, 0x13#8, 0x20#8, 0x21#8, 0x22#8, 0x23#8, 0x24#8, 0x25#8,
      0x26#8, 0x27#8, 0x28#8, 0x29#8, 0x2A#8, 0x30#8, 0x31#8, 0x32#8, 0x33#8, 0x34#8, 0x40#8, 0x41#8] : List Byte) →
    step s = .next { s with
      inputs := rest, cmd := v.setWidth 8, status := 4#32, err := 0x4F#8, subErr := 0#8 }

/-- 44_system R223, 10_state R21: a HOST read of a register gives its value zero-extended, 0 for a reserved number; a
write stores the low bits that fit, a TLEN above TB_CAP and a FLEN above FB_CAP are ignored whole, a read-only or
reserved number ignores the write. What a read gives is seen in the model's own field `hostData` (log entry 9). -/
def Obligations.HostRegisterAccess : Prop :=
  ∀ (s : State) (n : Nat) (v : Word) (rest : List Input), s.busy = false →
    (s.inputs = .host (.readReg n) :: rest →
      step s = .next { s with inputs := rest, hostData := (registerValues s).getD n 0#32 }) ∧
    (s.inputs = .host (.writeReg n v) :: rest → n ≠ 0 →
      step s = .next (
        if n = 4 then { s with inputs := rest, a0 := v }
        else if n = 5 then { s with inputs := rest, a1 := v }
        else if n = 6 then { s with inputs := rest, a2 := v }
        else if n = 7 then { s with inputs := rest, a3 := v }
        else if n = 12 ∧ v.toNat ≤ s.cfg.tbCap then { s with inputs := rest, tlen := v }
        else if n = 15 then { s with inputs := rest, dlen := BitVec.ofNat 16 (v.toNat % 2 ^ 16) }
        else if n = 16 ∧ v.toNat ≤ 259 then { s with inputs := rest, flen := BitVec.ofNat 16 v.toNat }
        else if n = 17 then { s with inputs := rest, edcMode := BitVec.ofNat 1 (v.toNat % 2) }
        else if n = 18 then { s with inputs := rest, haddr := BitVec.ofNat 3 (v.toNat % 8) }
        else if n = 19 then { s with inputs := rest, daddr := BitVec.ofNat 3 (v.toNat % 8) }
        else if n = 20 then { s with inputs := rest, bwt := v }
        else { s with inputs := rest }))

/-- 44_system R225: a HOST read of an octet gives it, 0 at or beyond the size of the space; a write of an octet of TB,
DB or FB stores that octet alone and no length; a write to LS0 or LS1, or at or beyond the size, writes nothing.
What a read gives is seen in the model's own field `hostData` (log entry 9). -/
def Obligations.HostBufferAccess : Prop :=
  ∀ (s : State) (sp : Space) (off : Nat) (b : Byte) (rest : List Input), s.MemoryInv → s.busy = false →
    (s.inputs = .host (.readByte sp off) :: rest → step s = .next { s with
      inputs := rest
      hostData := if off < sizeOfSpace s sp then ((s.space sp).read off).setWidth 32 else 0#32 }) ∧
    (s.inputs = .host (.writeByte sp off b) :: rest → off < sizeOfSpace s sp → sp ≠ .ls0 → sp ≠ .ls1 →
      ∃ t, step s = .next t ∧ Stored (s.space sp) (t.space sp) off [b] ∧
        (∀ other, other ≠ sp → t.space other = s.space other) ∧
        t = { s with inputs := rest, tb := t.tb, db := t.db, fb := t.fb }) ∧
    (s.inputs = .host (.writeByte sp off b) :: rest → (sizeOfSpace s sp ≤ off ∨ sp = .ls0 ∨ sp = .ls1) →
      step s = .next { s with inputs := rest })

/-- 70_reset_and_hazards R266: while BUSY is 1 no HOST write has an effect, a read of STATUS gives its value, and every
other read gives 0; that value is 1 in a state that meets the invariant of STATUS. What a read gives is seen in the
model's own field `hostData` (log entry 9). -/
def Obligations.HostAccessWhileBusy : Prop :=
  ∀ (s : State) (rest : List Input), s.busy = true →
    (∀ n v, s.inputs = .host (.writeReg n v) :: rest → step s = .next { s with inputs := rest }) ∧
    (∀ sp off b, s.inputs = .host (.writeByte sp off b) :: rest → step s = .next { s with inputs := rest }) ∧
    (s.inputs = .host (.readReg 1) :: rest → step s = .next { s with inputs := rest, hostData := s.status }) ∧
    (∀ n, n ≠ 1 → s.inputs = .host (.readReg n) :: rest →
      step s = .next { s with inputs := rest, hostData := 0#32 }) ∧
    (∀ sp off, s.inputs = .host (.readByte sp off) :: rest →
      step s = .next { s with inputs := rest, hostData := 0#32 }) ∧
    (s.StatusInv → s.status = 1#32)

/-- 10_state R47, 70_reset_and_hazards R260, 44_system R222: the hardware reset, at any time, and the command SRST put
every piece of state at its reset value; afterwards CMD and STATUS are 0 and 0, or 0x01 and 2. Nothing is sent on the
line. The model's own fields (log entry 14) keep their values. -/
def Obligations.ResetsRestoreEveryValue : Prop :=
  decodeCommand 0x01#8 = .ok .srst ∧
  (∀ (s : State) (rest : List Input), s.inputs = .hardReset :: rest →
    ∃ t, step s = .next t ∧ AtReset t ∧ t.cmd = 0#8 ∧ t.status = 0#32 ∧ t.lineOut = none ∧
      t.cfg = s.cfg ∧ t.inputs = rest ∧ t.hostData = s.hostData) ∧
  (∀ s : State, ∃ t, exec .srst s = .next t ∧ AtReset t ∧ t.cmd = 0x01#8 ∧ t.status = 2#32 ∧ t.lineOut = none ∧
    t.cfg = s.cfg ∧ t.inputs = s.inputs ∧ t.hostData = s.hostData) ∧
  AtReset State.reset ∧ State.reset.cmd = 0#8 ∧ State.reset.status = 0#32 ∧ State.reset.ifs = 32#8 ∧
    State.reset.haddr = 0#3 ∧ State.reset.daddr = 0#3 ∧ State.reset.bwt = 0#32

/-- The model's own reading of events that do nothing: every step gives a next state (log entry 18); no event changes
nothing (log entry 8); an answer or a received PCB that no exchange asked for changes nothing (log entry 7). -/
def Obligations.StepAlwaysAnswers : Prop :=
  (∀ s : State, ∃ t, step s = .next t) ∧
  (∀ s : State, s.inputs = [] → step s = .next s) ∧
  (∀ (s : State) (a : Answer) (rest : List Input), s.work = none → s.inputs = .line a :: rest →
    step s = .next { s with inputs := rest }) ∧
  (∀ (i : Instr) (s : State), i.format = .pcb → s.work = none → exec i s = .next s)

/-- 44_system R221: NOP does nothing beyond the start and the end of a command; after it STATUS is 2, ERR and SUBERR
are 0, and all other state is unchanged. -/
def Obligations.NopOnlyClears : Prop :=
  decodeCommand 0x00#8 = .ok .nop ∧
  (∀ s : State, exec .nop s = .next { s with status := 2#32 }) ∧
  (∀ (s : State) (v : Word) (rest : List Input), s.busy = false → s.inputs = .host (.writeReg 0 v) :: rest →
    v.setWidth 8 = 0x00#8 →
    step s = .next { s with inputs := rest, cmd := 0x00#8, status := 2#32, err := 0#8, subErr := 0#8 })

/-- 40_tag_len_unit R121, 30_encoding R85: TAGDEC. Nothing at or beyond TLEN is read. A tag whose low five bits are not
0x1F is one octet; else the number is in the groups up to the first octet with bit 7 clear, the `k` groups before it
giving less than 2^21; any other content is MalformedTag. Which bits of the first octet hold class and constructed is
log entry 6. -/
def Obligations.TagdecReadsTag : Prop :=
  decodeCommand 0x10#8 = .ok .tagdec ∧
  ∀ s : State,
    let b := s.tb.read
    let o := s.a0.toNat
    let f := (b o).toNat
    (s.tlen.toNat ≤ o → exec .tagdec s = .next (raised s 0x10#8)) ∧
    (o < s.tlen.toNat → f % 32 ≠ 31 → exec .tagdec s = .next { s with
      r0 := tagWordOf (f / 64) (f / 32 % 2) (f % 32), r1 := BitVec.ofNat 32 (o + 1), status := 2#32 }) ∧
    (∀ k, o + 1 + k < s.tlen.toNat → f % 32 = 31 → (∀ j < k, 128 ≤ (b (o + 1 + j)).toNat) →
      (b (o + 1 + k)).toNat < 128 → groupValue b (o + 1) k < 2 ^ 21 → exec .tagdec s = .next { s with
        r0 := tagWordOf (f / 64) (f / 32 % 2) (groupValue b (o + 1) (k + 1))
        r1 := BitVec.ofNat 32 (o + 2 + k)
        status := 2#32 }) ∧
    (∀ k, o + 1 + k < s.tlen.toNat → f % 32 = 31 → (∀ j < k, 128 ≤ (b (o + 1 + j)).toNat) →
      2 ^ 21 ≤ groupValue b (o + 1) k → exec .tagdec s = .next (raised s 0x10#8)) ∧
    (o < s.tlen.toNat → f % 32 = 31 → (∀ j, o + 1 + j < s.tlen.toNat → 128 ≤ (b (o + 1 + j)).toNat) →
      exec .tagdec s = .next (raised s 0x10#8))

/-- 40_tag_len_unit R122, R120, 30_encoding R86: TAGENC appends the shortest encoding of the Tag and R0 takes its
number of octets; the wildcard is BadOperand, a full TB BufferOverflow. Which bits of the first octet hold class and
constructed is log entry 6. -/
def Obligations.TagencAppendsTag : Prop :=
  decodeCommand 0x11#8 = .ok .tagenc ∧
  ∀ s : State, s.MemoryInv → s.cfg.WellFormed →
    let bs := tagOctets s.a0
    if 2 ^ 31 ≤ s.a0.toNat then exec .tagenc s = .next (raised s 0x45#8)
    else if s.cfg.tbCap < s.tlen.toNat + bs.length then exec .tagenc s = .next (raised s 0x47#8)
    else ∃ t, exec .tagenc s = .next t ∧ Appended s t bs

/-- 40_tag_len_unit R123, 30_encoding R87: LENDEC reads the short form or one to four big-endian octets, and nothing at
or beyond TLEN; any other content is MalformedTlv. -/
def Obligations.LendecReadsLength : Prop :=
  decodeCommand 0x12#8 = .ok .lendec ∧
  ∀ s : State,
    let b := s.tb.read
    let o := s.a0.toNat
    let f := (b o).toNat
    if s.tlen.toNat ≤ o then exec .lendec s = .next (raised s 0x11#8)
    else if f < 128 then
      exec .lendec s = .next { s with r0 := BitVec.ofNat 32 f, r1 := BitVec.ofNat 32 (o + 1), status := 2#32 }
    else if f = 128 ∨ 132 < f ∨ s.tlen.toNat < o + 1 + (f - 128) then exec .lendec s = .next (raised s 0x11#8)
    else exec .lendec s = .next { s with
      r0 := BitVec.ofNat 32 (octetValue b (o + 1) (f - 128))
      r1 := BitVec.ofNat 32 (o + 1 + (f - 128))
      status := 2#32 }

/-- 40_tag_len_unit R124, R120, 30_encoding R88: LENENC appends the shortest encoding of A0 and R0 takes its number of
octets; a full TB is BufferOverflow. -/
def Obligations.LenencAppendsLength : Prop :=
  decodeCommand 0x13#8 = .ok .lenenc ∧
  ∀ s : State, s.MemoryInv → s.cfg.WellFormed →
    let bs := lengthOctets s.a0.toNat
    if s.cfg.tbCap < s.tlen.toNat + bs.length then exec .lenenc s = .next (raised s 0x47#8)
    else ∃ t, exec .lenenc s = .next t ∧ Appended s t bs

/-- 41_tlv_unit R141 to R144: TLVPARSE and TLVPARSEAT are the recursive descent with an explicit cursor, from offset 0
and from A0, then the commit; an error of the descent or ArenaFull changes nothing else. Which bits of the first octet
hold class and constructed is log entry 6. -/
def Obligations.TlvparseFollowsDescent : Prop :=
  decodeCommand 0x20#8 = .ok .tlvparse ∧ decodeCommand 0x21#8 = .ok .tlvparseat ∧
  ∀ s : State, exec .tlvparse s = .next (parsedFrom s 0) ∧ exec .tlvparseat s = .next (parsedFrom s s.a0.toNat)

/-- 41_tlv_unit R141 to R144: where TB holds the encoding of a tree that fits `DEPTH_MAX` and the arena has room, the
parse ends without error, stores the tree in pre-order, and answers the root's id and the offset after it. -/
def Obligations.TlvparseStoresTree : Prop :=
  ∀ (s : State) (o : Nat) (tree : Tree), tree.fits s.cfg.depthMax = true →
    octetsAt s.tb.read o tree.enc.length = tree.enc → o + tree.enc.length ≤ s.tlen.toNat →
    s.ncnt.toNat + tree.count ≤ s.cfg.nodeCap → s.vused.toNat + tree.valueBytes ≤ s.cfg.valCap →
    let t := { s with
      nodes := s.nodes ++ tree.records s.ncnt.toNat none
      ncnt := BitVec.ofNat 32 (s.ncnt.toNat + tree.count)
      vused := BitVec.ofNat 32 (s.vused.toNat + tree.valueBytes)
      r0 := s.ncnt
      r1 := BitVec.ofNat 32 (o + tree.enc.length)
      status := 2#32 }
    (o = 0 → exec .tlvparse s = .next t) ∧ (o = s.a0.toNat → exec .tlvparseat s = .next t)

/-- 41_tlv_unit R145, 40_tag_len_unit R120: TLVSER appends `enc` of the node and R0 takes its `size`; an invalid id is
BadNode, a full TB BufferOverflow. -/
def Obligations.TlvserAppendsEncoding : Prop :=
  decodeCommand 0x22#8 = .ok .tlvser ∧
  ∀ s : State, s.MemoryInv → s.ArenaInv →
    let bs := encNode s.nodes.length s.nodes s.a0.toNat
    if s.ncnt.toNat ≤ s.a0.toNat then exec .tlvser s = .next (raised s 0x44#8)
    else if s.cfg.tbCap < s.tlen.toNat + bs.length then exec .tlvser s = .next (raised s 0x47#8)
    else ∃ t, exec .tlvser s = .next t ∧ Appended s t bs ∧ t.r0.toNat = sizeAt s.nodes s.a0.toNat

/-- 30_encoding R90, 41_tlv_unit R149: in an arena that meets its invariants, `enc`, `depth`, `root_of` and `height` of
a node satisfy the equations the spec gives them, and `enc` has `size` octets, `length` of them content. -/
def Obligations.ArenaWalksMeetEquations : Prop :=
  ∀ s : State, s.ArenaInv → ∀ (x : Nat) (n : Node), s.nodes[x]? = some n →
    let ns := s.nodes
    let enc := encNode ns.length ns
    let content := match n.body with
      | .prim v => v
      | .cons kids => kids.flatMap enc
    enc x = tagEncode n.tag ++ lenEncode n.length ++ content ∧
    content.length = n.length ∧
    (enc x).length = tagSize n.tag.number.toNat + lenSize n.length + n.length ∧
    depthOf ns x = (match n.parent with | none => 1 | some p => depthOf ns p + 1) ∧
    rootOf ns x = (match n.parent with | none => x | some p => rootOf ns p) ∧
    heightOf ns x = 1 + (n.children.map (heightOf ns)).foldr max 0

/-- 41_tlv_unit R147: TLVFIND answers the first direct child, after A2 if that is given, whose Tag is the one of A1, or
any when A1 is the wildcard; NONE and 0 when there is none; an invalid A0, or an A2 that is no child, is BadNode. -/
def Obligations.TlvfindFindsFirstMatch : Prop :=
  decodeCommand 0x23#8 = .ok .tlvfind ∧
  ∀ s : State, s.ArenaInv →
    let kids := childrenOf s.nodes s.a0.toNat
    let rest := if s.a2 = 0xFFFFFFFF#32 then kids else kids.drop (kids.idxOf s.a2.toNat + 1)
    if s.ncnt.toNat ≤ s.a0.toNat then exec .tlvfind s = .next (raised s 0x44#8)
    else if s.a2 ≠ 0xFFFFFFFF#32 ∧ (s.ncnt.toNat ≤ s.a2.toNat ∨ parentOf s.nodes s.a2.toNat ≠ some s.a0.toNat) then
      exec .tlvfind s = .next (raised s 0x44#8)
    else
      match rest.find? (fun c => 2 ^ 31 ≤ s.a1.toNat ∨ tagAt s.nodes c = some (tagNamed s.a1)) with
      | some c => exec .tlvfind s = .next { s with r0 := BitVec.ofNat 32 c, r1 := 1#32, status := 2#32 }
      | none => exec .tlvfind s = .next { s with r0 := 0xFFFFFFFF#32, r1 := 0#32, status := 2#32 }

/-- 41_tlv_unit R148, R149: TLVAPPEND makes the root A1 the last child of A0 and restores the lengths up to the root;
tags, values and all other links stay; the length of A0 grows by the size of A1. The errors come in the order of the
rule. -/
def Obligations.TlvappendLinksChild : Prop :=
  decodeCommand 0x24#8 = .ok .tlvappend ∧
  ∀ s : State, s.ArenaInv →
    let p := s.a0.toNat
    let c := s.a1.toNat
    if s.ncnt.toNat ≤ p ∨ s.ncnt.toNat ≤ c then exec .tlvappend s = .next (raised s 0x44#8)
    else if (tagAt s.nodes p).map (·.constructed) = some false then exec .tlvappend s = .next (raised s 0x42#8)
    else if parentOf s.nodes c ≠ none ∨ c = rootOf s.nodes p then exec .tlvappend s = .next (raised s 0x44#8)
    else if s.cfg.depthMax < depthOf s.nodes p + heightOf s.nodes c then
      exec .tlvappend s = .next (raised s 0x48#8)
    else ∃ ns, exec .tlvappend s = .next { s with nodes := ns, status := 2#32 } ∧
      ns.length = s.nodes.length ∧
      (∀ y, tagAt ns y = tagAt s.nodes y) ∧
      (∀ y, valueAt ns y = valueAt s.nodes y) ∧
      (∀ y, parentOf ns y = if y = c then some p else parentOf s.nodes y) ∧
      (∀ y, childrenOf ns y = if y = p then childrenOf s.nodes p ++ [c] else childrenOf s.nodes y) ∧
      LengthsRight ns ∧
      lengthAt ns p = (lengthAt s.nodes p).map (· + sizeAt s.nodes c)

/-- 41_tlv_unit R150, R151: TLVNEWP and TLVNEWC make one root node, primitive with the value octets of TB or
constructed and empty; R0 takes its id. The errors come in the order of the rules. -/
def Obligations.NewNodesAreRoots : Prop :=
  decodeCommand 0x25#8 = .ok .tlvnewp ∧ decodeCommand 0x26#8 = .ok .tlvnewc ∧
  ∀ s : State, s.ArenaInv →
    (if 2 ^ 30 ≤ s.a0.toNat then exec .tlvnewp s = .next (raised s 0x45#8)
      else if s.tlen.toNat < s.a1.toNat + s.a2.toNat then exec .tlvnewp s = .next (raised s 0x45#8)
      else if s.ncnt.toNat = s.cfg.nodeCap ∨ s.cfg.valCap < s.vused.toNat + s.a2.toNat then
        exec .tlvnewp s = .next (raised s 0x46#8)
      else exec .tlvnewp s = .next { s with
        nodes := s.nodes ++
          [⟨tagNamed s.a0, s.a2.toNat, .prim (octetsAt s.tb.read s.a1.toNat s.a2.toNat), none⟩]
        ncnt := BitVec.ofNat 32 (s.ncnt.toNat + 1)
        vused := BitVec.ofNat 32 (s.vused.toNat + s.a2.toNat)
        r0 := s.ncnt
        status := 2#32 }) ∧
    (if 2 ^ 31 ≤ s.a0.toNat ∨ s.a0.toNat < 2 ^ 30 then exec .tlvnewc s = .next (raised s 0x45#8)
      else if s.ncnt.toNat = s.cfg.nodeCap then exec .tlvnewc s = .next (raised s 0x46#8)
      else exec .tlvnewc s = .next { s with
        nodes := s.nodes ++ [⟨tagNamed s.a0, 0, .cons [], none⟩]
        ncnt := BitVec.ofNat 32 (s.ncnt.toNat + 1)
        r0 := s.ncnt
        status := 2#32 })

/-- 41_tlv_unit R148, R152: TLVSETV replaces the value of a primitive node and restores the lengths of its ancestors;
tags, links and all other values stay. The errors come in the order of the rule. -/
def Obligations.TlvsetvReplacesValue : Prop :=
  decodeCommand 0x27#8 = .ok .tlvsetv ∧
  ∀ s : State, s.ArenaInv →
    let x := s.a0.toNat
    let old := (lengthAt s.nodes x).getD 0
    if s.ncnt.toNat ≤ x then exec .tlvsetv s = .next (raised s 0x44#8)
    else if (tagAt s.nodes x).map (·.constructed) = some true then exec .tlvsetv s = .next (raised s 0x43#8)
    else if s.tlen.toNat < s.a1.toNat + s.a2.toNat then exec .tlvsetv s = .next (raised s 0x45#8)
    else if s.cfg.valCap < s.vused.toNat - old + s.a2.toNat then exec .tlvsetv s = .next (raised s 0x46#8)
    else ∃ ns, exec .tlvsetv s = .next { s with
        nodes := ns, vused := BitVec.ofNat 32 (s.vused.toNat - old + s.a2.toNat), status := 2#32 } ∧
      ns.length = s.nodes.length ∧
      (∀ y, tagAt ns y = tagAt s.nodes y) ∧
      (∀ y, parentOf ns y = parentOf s.nodes y) ∧
      (∀ y, childrenOf ns y = childrenOf s.nodes y) ∧
      (∀ y, valueAt ns y = if y = x then some (octetsAt s.tb.read s.a1.toNat s.a2.toNat) else valueAt s.nodes y) ∧
      lengthAt ns x = some s.a2.toNat ∧
      LengthsRight ns

/-- 41_tlv_unit R153: TLVGET reads the TagWord, the length, the parent and the number of children of a node; an invalid
id is BadNode. -/
def Obligations.TlvgetReadsAttributes : Prop :=
  decodeCommand 0x28#8 = .ok .tlvget ∧
  ∀ s : State, s.ArenaInv →
    (s.ncnt.toNat ≤ s.a0.toNat → exec .tlvget s = .next (raised s 0x44#8)) ∧
    (∀ n, s.nodes[s.a0.toNat]? = some n → exec .tlvget s = .next { s with
      r0 := tagWordOf n.tag.cls.toNat n.tag.constructed.toNat n.tag.number.toNat
      r1 := BitVec.ofNat 32 n.length
      r2 := BitVec.ofNat 32 (n.parent.getD 0xFFFFFFFF)
      r3 := BitVec.ofNat 32 n.children.length
      status := 2#32 })

/-- 41_tlv_unit R154, 40_tag_len_unit R120: TLVGETV appends the value of a primitive node; R0 takes its number of
octets. The errors come in the order of the rule. -/
def Obligations.TlvgetvAppendsValue : Prop :=
  decodeCommand 0x29#8 = .ok .tlvgetv ∧
  ∀ s : State, s.MemoryInv → s.ArenaInv →
    let v := (valueAt s.nodes s.a0.toNat).getD []
    if s.ncnt.toNat ≤ s.a0.toNat then exec .tlvgetv s = .next (raised s 0x44#8)
    else if (tagAt s.nodes s.a0.toNat).map (·.constructed) = some true then
      exec .tlvgetv s = .next (raised s 0x43#8)
    else if s.cfg.tbCap < s.tlen.toNat + v.length then exec .tlvgetv s = .next (raised s 0x47#8)
    else ∃ t, exec .tlvgetv s = .next t ∧ Appended s t v ∧ some t.r0.toNat = lengthAt s.nodes s.a0.toNat

/-- 41_tlv_unit R160: TLVCLR frees every node and cannot fail; TB, TLEN and R0 to R3 stay, and every node id is invalid
after it. -/
def Obligations.TlvclrFreesAll : Prop :=
  decodeCommand 0x2A#8 = .ok .tlvclr ∧
  ∀ s : State, ∃ t, exec .tlvclr s = .next t ∧
    t = { s with nodes := [], ncnt := 0#32, vused := 0#32, status := 2#32 } ∧
    ∀ x : Word, exec .tlvget { t with a0 := x } = .next (raised { t with a0 := x } 0x44#8)

/-- 42_t1_block_unit R172: T1MKI builds an I-block with the data of DB, after the test of the mode and of DLEN. Which
bits of NAD hold the two addresses is log entry 5. -/
def Obligations.T1mkiBuildsFrame : Prop :=
  decodeCommand 0x30#8 = .ok .t1mki ∧
  ∀ s : State, s.MemoryInv →
    let raw := frameOf (s.a0.toNat % 8) (s.a0.toNat / 16 % 8) (s.a1.toNat % 2 * 64)
      (octetsAt s.db.read 0 s.dlen.toNat)
    if s.edcMode = 1#1 then exec .t1mki s = .next (raised s 0x41#8)
    else if 254 < s.dlen.toNat then exec .t1mki s = .next (raised s 0x40#8)
    else ∃ t, exec .t1mki s = .next t ∧ Stored s.fb t.fb 0 raw ∧
      t = { s with fb := t.fb, flen := BitVec.ofNat 16 (s.dlen.toNat + 4), r0 := headerOf raw, status := 2#32 }

/-- 42_t1_block_unit R173: T1MKR builds an R-block without data, after the test of the mode and of the error code.
Which bits of NAD hold the two addresses is log entry 5. -/
def Obligations.T1mkrBuildsFrame : Prop :=
  decodeCommand 0x31#8 = .ok .t1mkr ∧
  ∀ s : State, s.MemoryInv →
    let raw := frameOf (s.a0.toNat % 8) (s.a0.toNat / 16 % 8) (0x80 + s.a1.toNat % 2 * 16 + s.a2.toNat) []
    if s.edcMode = 1#1 then exec .t1mkr s = .next (raised s 0x41#8)
    else if 2 < s.a2.toNat then exec .t1mkr s = .next (raised s 0x45#8)
    else ∃ t, exec .t1mkr s = .next t ∧ Stored s.fb t.fb 0 raw ∧
      t = { s with fb := t.fb, flen := 4#16, r0 := headerOf raw, status := 2#32 }

/-- 42_t1_block_unit R174: T1MKS builds an S-block with the data of DB, after the test of the mode, of the code against
the nine of `SCODE`, and of DLEN. Which bits of NAD hold the two addresses is log entry 5. -/
def Obligations.T1mksBuildsFrame : Prop :=
  decodeCommand 0x32#8 = .ok .t1mks ∧
  ∀ s : State, s.MemoryInv →
    let raw := frameOf (s.a0.toNat % 8) (s.a0.toNat / 16 % 8) (0xC0 + s.a1.toNat % 64)
      (octetsAt s.db.read 0 s.dlen.toNat)
    if s.edcMode = 1#1 then exec .t1mks s = .next (raised s 0x41#8)
    else if BitVec.ofNat 6 (s.a1.toNat % 64) ∉ s.cfg.scode.codes then exec .t1mks s = .next (raised s 0x45#8)
    else if 254 < s.dlen.toNat then exec .t1mks s = .next (raised s 0x40#8)
    else ∃ t, exec .t1mks s = .next t ∧ Stored s.fb t.fb 0 raw ∧
      t = { s with fb := t.fb, flen := BitVec.ofNat 16 (s.dlen.toNat + 4), r0 := headerOf raw, status := 2#32 }

/-- 42_t1_block_unit R175, 30_encoding R103: T1PARSE tests the mode, then the size, then the EDC, and no more; it
stores the data field in DB and answers the header word and the addresses with the block type. Which bits of NAD hold
the two addresses is log entry 5. -/
def Obligations.T1parseVerifiesFrame : Prop :=
  decodeCommand 0x33#8 = .ok .t1parse ∧
  ∀ s : State, s.MemoryInv →
    let raw := octetsAt s.fb.read 0 s.flen.toNat
    let len := (s.fb.read 2).toNat
    let nad := (s.fb.read 0).toNat
    let pcb := (s.fb.read 1).toNat
    let data := octetsAt s.fb.read 3 len
    let type := if pcb < 0x80 then 0 else if pcb < 0xC0 then 2 else 3
    if s.edcMode = 1#1 then exec .t1parse s = .next (raised s 0x41#8)
    else if s.flen.toNat < 4 ∨ len = 255 ∨ s.flen.toNat ≠ len + 4 then exec .t1parse s = .next (raised s 0x12#8)
    else if xorAll (raw.take (s.flen.toNat - 1)) ≠ s.fb.read (s.flen.toNat - 1) then
      exec .t1parse s = .next (raised s 0x20#8)
    else ∃ t, exec .t1parse s = .next t ∧ Stored s.db t.db 0 data ∧ t = { s with
      db := t.db
      dlen := BitVec.ofNat 16 len
      r0 := headerOf raw
      r1 := BitVec.ofNat 32 (nad % 8 + nad / 16 % 8 * 16 + type * 256)
      status := 2#32 }

/-- 42_t1_block_unit R176: T1EDC answers the exclusive or of the first A0 octets of FB, whatever FLEN and EDCMODE are;
more than 259 octets is BadOperand. -/
def Obligations.T1edcComputesLrc : Prop :=
  decodeCommand 0x34#8 = .ok .t1edc ∧
  ∀ s : State,
    if 259 < s.a0.toNat then exec .t1edc s = .next (raised s 0x45#8)
    else exec .t1edc s = .next { s with
      r0 := (xorAll (octetsAt s.fb.read 0 s.a0.toNat)).setWidth 32, status := 2#32 }

/-- 43_t1_protocol R200: T1OPEN whose two requests get a RESYNCH_RESPONSE and an IFS_RESPONSE with one data octet ends
without error after two exchanges: SSEQ and RSEQ 0, IFS that octet, no slot, buffer or result register written. That
the answers are served inside the one step is log entry 1. -/
def Obligations.T1openCompletes : Prop :=
  ∀ (s : State) (g1 g2 : List Byte) (b1 b2 : Block) (rest : List Input), s.cfg.scode.WellFormed →
    s.edcMode = 0#1 → 1 ≤ s.cfg.openAttempts → 1 ≤ s.cfg.retryBudget →
    s.inputs = .line (.ok g1) :: .line (.ok g2) :: rest →
    t1Parse 0#1 g1 = .ok b1 → b1.pcb = 0xC0#8 ||| s.cfg.scode.resynchResponse.setWidth 8 →
    t1Parse 0#1 g2 = .ok b2 → b2.pcb = 0xC0#8 ||| s.cfg.scode.ifsResponse.setWidth 8 → b2.len = 1#8 →
    exec .t1open s = .next { s with
      sseq := 0#1, rseq := 0#1, ifs := g2.getD 3 0#8, xcnt := s.xcnt + 2#32, status := 2#32, work := none
      inputs := rest }

/-- 43_t1_protocol R200, R201, R191 to R199: T1OPEN with the answers that stand first among the events is
NotImplemented in CRC mode, else up to OPEN_ATTEMPTS runs of the open sequence over internal_transmit; an error ends
its attempt, the last one is InitFailed with the cause in SUBERR; without enough answers the command waits (log entries
1 and 13). Which bits of the NAD of a frame hold the two addresses is log entry 5. -/
def Obligations.T1openFollowsAttempts : Prop :=
  ∀ s : State, s.cfg.scode.WellFormed → s.work = none →
    (s.edcMode = 1#1 → exec .t1open s = .next (raised s 0x41#8)) ∧
    (s.edcMode = 0#1 → exec .t1open s =
      .next (openAttemptsFrom (answersFirst s.inputs).2 s.cfg.openAttempts 0#8 (answersFirst s.inputs).1 s))

/-- 43_t1_protocol R202, R193, R203: T1XMIT answered by an I-block ends without error after one exchange: the frame
sent is in the slot of the old SSEQ, DB and DLEN hold the answer's data, R0 its header and R1 its addresses, RSEQ is
toggled and SSEQ too if SEND_SEQ_ADVANCE. That the answer is served inside the one step is log entry 1. Which bits of
NAD hold the two addresses is log entry 5. -/
def Obligations.T1xmitCompletes : Prop :=
  ∀ (s : State) (g : List Byte) (b : Block) (rest : List Input), s.MemoryInv →
    s.edcMode = 0#1 → s.dlen.toNat ≤ s.ifs.toNat → s.dlen.toNat ≤ 254 → 1 ≤ s.cfg.retryBudget →
    s.inputs = .line (.ok g) :: rest → t1Parse 0#1 g = .ok b → b.pcb.toNat < 0x80 →
    let out := frameOf s.haddr.toNat (s.a0.toNat % 8) (s.sseq.toNat * 64) (octetsAt s.db.read 0 s.dlen.toNat)
    ∃ t, exec .t1xmit s = .next t ∧ Stored s.db t.db 0 b.data ∧
      (if s.sseq = 0#1 then Stored s.ls0 t.ls0 0 out ∧ t.ls0len.toNat = out.length ∧ t.ls1 = s.ls1 ∧
        t.ls1len = s.ls1len
      else Stored s.ls1 t.ls1 0 out ∧ t.ls1len.toNat = out.length ∧ t.ls0 = s.ls0 ∧ t.ls0len = s.ls0len) ∧
      t = { s with
        db := t.db, ls0 := t.ls0, ls1 := t.ls1, ls0len := t.ls0len, ls1len := t.ls1len
        dlen := BitVec.ofNat 16 b.data.length
        r0 := headerOf g
        r1 := BitVec.ofNat 32 (b.nad.toNat % 8 + b.nad.toNat / 16 % 8 * 16)
        rseq := s.rseq ^^^ 1#1
        sseq := if s.cfg.sendSeqAdvance then s.sseq ^^^ 1#1 else s.sseq
        xcnt := s.xcnt + 1#32
        status := 2#32
        work := none
        inputs := rest }

/-- 43_t1_protocol R202 to R204, R191 to R199: T1XMIT with the answers that stand first among the events makes its
three tests in order, then is internal_transmit as the spec's recursion, with the I-block stored in the slot of SSEQ;
without enough answers the command waits (log entries 1 and 13). Which bits of NAD and of R1 hold the two addresses is
log entry 5. -/
def Obligations.T1xmitFollowsRecursion : Prop :=
  ∀ s : State, s.cfg.scode.WellFormed → s.work = none →
    let out := frameOf s.haddr.toNat (s.a0.toNat % 8) (s.sseq.toNat * 64) (octetsAt s.db.read 0 s.dlen.toNat)
    if s.ifs.toNat < s.dlen.toNat then exec .t1xmit s = .next (raised s 0x40#8)
    else if s.edcMode = 1#1 then exec .t1xmit s = .next (raised s 0x41#8)
    else if 254 < s.dlen.toNat then exec .t1xmit s = .next (raised s 0x40#8)
    else exec .t1xmit s = .next (xmitAfter (answersFirst s.inputs).2
      (internalTransmit s.cfg.retryBudget out (answersFirst s.inputs).1 (s.storeSlot s.sseq out)))

/-- 43_t1_protocol R193, R202, R203, R208: an I-block received by a T1XMIT that waits ends it without error, whatever
its sequence bit, its more-data bit and bits 4 to 0 are: its data field goes to DB and DLEN. The PCB in R0 is the octet
of the instruction (log entry 17). That a PCB octet is an instruction is log entry 2. Which bits of NAD and of R1 hold
the two addresses is log entry 5. -/
def Obligations.PcbIEndsTransmit : Prop :=
  ∀ (s : State) (w : Work) (ns more : BitVec 1) (ignored : BitVec 5), s.MemoryInv → s.work = some w →
    w.job = .xmit →
    let data := (w.rx.drop 3).dropLast
    let nad := (w.rx.getD 0 0#8).toNat
    let pcb := ns.toNat * 64 + more.toNat * 32 + ignored.toNat
    ∃ t, exec (.pcbI ns more ignored) s = .next t ∧ Stored s.db t.db 0 data ∧ t = { s with
      db := t.db
      dlen := BitVec.ofNat 16 data.length
      r0 := BitVec.ofNat 32 (nad + pcb * 2 ^ 8 + (w.rx.getD 2 0#8).toNat * 2 ^ 16 +
        (w.rx.getLastD 0#8).toNat * 2 ^ 24)
      r1 := BitVec.ofNat 32 (nad % 8 + nad / 16 % 8 * 16)
      rseq := s.rseq ^^^ 1#1
      sseq := if s.cfg.sendSeqAdvance then s.sseq ^^^ 1#1 else s.sseq
      status := 2#32
      work := none }

/-- 43_t1_protocol R194, R191, R192: a received R-block makes the engine send the frame of the slot its sequence bit
names, with one fewer retry; its error code and bit 5 are not read and no slot changes. An empty slot ends a T1XMIT
with ResendSlotEmpty, a spent budget with TooManyRetries. That a PCB octet is an instruction is log entry 2. -/
def Obligations.PcbRResendsSlot : Prop :=
  ∀ (s : State) (w : Work) (ignored nr : BitVec 1) (err : BitVec 4), s.work = some w →
    let len := if nr = 0#1 then s.ls0len else s.ls1len
    let frame := octetsAt (if nr = 0#1 then s.ls0.read else s.ls1.read) 0 len.toNat
    (len ≠ 0#16 → 2 ≤ w.retries → exec (.pcbR ignored nr err) s = .next { s with
      xcnt := s.xcnt + 1#32, status := 1#32, work := some ⟨w.job, w.retries - 1, frame, []⟩ }) ∧
    (len = 0#16 → w.job = .xmit → exec (.pcbR ignored nr err) s = .next { s with
      err := 0x24#8, subErr := 0#8, status := 4#32, work := none }) ∧
    (len ≠ 0#16 → w.retries = 1 → w.job = .xmit → exec (.pcbR ignored nr err) s = .next { s with
      err := 0x21#8, subErr := 0#8, status := 4#32, work := none })

/-- 43_t1_protocol R195, R206: a received WTX_REQUEST is answered with a WTX_RESPONSE that echoes its data field, from
HADDR to the destination of the outbound frame, with one fewer retry; it is stored in no slot and BWT does not change.
A spent budget ends a T1XMIT with TooManyRetries. That a PCB octet is an instruction is log entry 2. Which bits of NAD
hold the two addresses is log entry 5. -/
def Obligations.PcbWtxIsAnswered : Prop :=
  ∀ (s : State) (w : Work), s.work = some w → GoodFrame w.rx →
    let out := frameOf s.haddr.toNat ((w.out.getD 0 0#8).toNat / 16 % 8) (0xC0 + s.cfg.scode.wtxResponse.toNat)
      ((w.rx.drop 3).dropLast)
    (2 ≤ w.retries → exec .pcbWtxRequest s = .next { s with
      xcnt := s.xcnt + 1#32, status := 1#32, work := some ⟨w.job, w.retries - 1, out, []⟩ }) ∧
    (w.retries = 1 → w.job = .xmit → exec .pcbWtxRequest s = .next { s with
      err := 0x21#8, subErr := 0#8, status := 4#32, work := none })

/-- 43_t1_protocol R197, R198, R200: a RESYNCH_RESPONSE to the RESYNCH_REQUEST of T1OPEN zeroes SSEQ and RSEQ and sends
the IFS_REQUEST with a fresh budget; an IFS_RESPONSE with one data octet to that request ends T1OPEN without error, IFS
taking the octet. That a PCB octet is an instruction is log entry 2. Which bits of the NAD of the IFS_REQUEST hold the
two addresses is log entry 5. -/
def Obligations.PcbResponsesAdvanceOpen : Prop :=
  ∀ (s : State) (w : Work) (a : Nat), s.work = some w →
    (w.job = .opening a .resynch → w.out.getD 1 0#8 = 0xC0#8 ||| s.cfg.scode.resynchRequest.setWidth 8 →
      1 ≤ s.cfg.retryBudget → exec .pcbResynchResponse s = .next { s with
        sseq := 0#1, rseq := 0#1, xcnt := s.xcnt + 1#32, status := 1#32
        work := some ⟨.opening a .ifs, s.cfg.retryBudget,
          frameOf s.haddr.toNat s.daddr.toNat (0xC0 + s.cfg.scode.ifsRequest.toNat) [s.cfg.ifsDefault], []⟩ }) ∧
    (w.job = .opening a .ifs → w.out.getD 1 0#8 = 0xC0#8 ||| s.cfg.scode.ifsRequest.setWidth 8 →
      GoodFrame w.rx → w.rx.length = 5 → exec .pcbIfsResponse s = .next { s with
        ifs := w.rx.getD 3 0#8, status := 2#32, work := none })

/-- 43_t1_protocol R199, R191, R192: under `retry_same` a block no other arm takes makes the engine send the same frame
again with one fewer retry, and under `fail` it ends a T1XMIT with UnexpectedBlock; the two response codes are such
blocks when the outbound frame is not their request. That a PCB octet is an instruction is log entry 2. -/
def Obligations.PcbUnknownRepeats : Prop :=
  ∀ (s : State) (w : Work), s.work = some w → ∀ i : Instr,
    (i ∈ ([.pcbResynchRequest, .pcbIfsRequest, .pcbAbortRequest, .pcbAbortResponse, .pcbWtxResponse,
        .pcbVppStateErrorResponse] : List Instr) ∨
      (i = .pcbResynchResponse ∧ w.out.getD 1 0#8 ≠ 0xC0#8 ||| s.cfg.scode.resynchRequest.setWidth 8) ∨
      (i = .pcbIfsResponse ∧ w.out.getD 1 0#8 ≠ 0xC0#8 ||| s.cfg.scode.ifsRequest.setWidth 8)) →
    (s.cfg.unknownReply = .retrySame → 2 ≤ w.retries → exec i s = .next { s with
      xcnt := s.xcnt + 1#32, status := 1#32, work := some ⟨w.job, w.retries - 1, w.out, []⟩ }) ∧
    (s.cfg.unknownReply = .retrySame → w.retries = 1 → w.job = .xmit → exec i s = .next { s with
      err := 0x21#8, subErr := 0#8, status := 4#32, work := none }) ∧
    (s.cfg.unknownReply = .fail → w.job = .xmit → exec i s = .next { s with
      err := 0x25#8, subErr := 0#8, status := 4#32, work := none })

/-- 43_t1_protocol R196, R206: a received frame with a wrong EDC makes the engine toggle SSEQ, store an R-block with
the sequence bit RSEQ and the error code EDC in the slot SSEQ then names, and send it with one fewer retry. Which bits of
NAD hold the two addresses is log entry 5. -/
def Obligations.EdcFailureSendsRBlock : Prop :=
  ∀ (s : State) (w : Work) (g : List Byte) (rest : List Input), s.MemoryInv → s.work = some w → 2 ≤ w.retries →
    s.inputs = .line (.ok g) :: rest → t1Parse 0#1 (g.take 259) = .error .edcError →
    let rb := frameOf s.haddr.toNat ((w.out.getD 0 0#8).toNat / 16 % 8) (0x81 + s.rseq.toNat * 16) []
    ∃ t, step s = .next t ∧
      (if s.sseq = 1#1 then Stored s.ls0 t.ls0 0 rb ∧ t.ls0len = 4#16 ∧ t.ls1 = s.ls1 ∧ t.ls1len = s.ls1len
      else Stored s.ls1 t.ls1 0 rb ∧ t.ls1len = 4#16 ∧ t.ls0 = s.ls0 ∧ t.ls0len = s.ls0len) ∧
      t = { s with
        ls0 := t.ls0, ls1 := t.ls1, ls0len := t.ls0len, ls1len := t.ls1len
        sseq := s.sseq ^^^ 1#1, xcnt := s.xcnt + 1#32, status := 1#32
        work := some ⟨w.job, w.retries - 1, rb, []⟩, inputs := rest }

/-- 43_t1_protocol R207, R201: a failure of the LINE and a frame of the wrong size are not retried, whatever the
budget: they end a T1XMIT with TransportError or LengthMismatch, and the last attempt of T1OPEN with InitFailed and
that cause. -/
def Obligations.LineFailureIsFatal : Prop :=
  ∀ (s : State) (w : Work) (a : Answer) (rest : List Input) (code : BitVec 8), s.work = some w →
    s.inputs = .line a :: rest →
    ((a = .fail ∧ code = 0x23#8) ∨
      (∃ g, a = .ok g ∧ t1Parse 0#1 (g.take 259) = .error .lengthMismatch ∧ code = 0x12#8)) →
    (w.job = .xmit → step s = .next { s with
      err := code, subErr := 0#8, status := 4#32, work := none, inputs := rest }) ∧
    (∀ ph, w.job = .opening s.cfg.openAttempts ph → step s = .next { s with
      err := 0x22#8, subErr := code, status := 4#32, work := none, inputs := rest })

/-- 43_t1_protocol R205: a LINE that returns three frames with a wrong EDC ends T1XMIT with TooManyRetries after
exactly three exchanges; the frames sent are the I-block and twice the R-block; SSEQ ends inverted, RSEQ unchanged,
both slots hold the R-block. No T1XMIT makes more than RETRY_BUDGET exchanges, no T1OPEN more than OPEN_ATTEMPTS * 2 *
RETRY_BUDGET. Which bits of the NAD of these frames hold the two addresses is log entry 5; what is sent is read off a
state that waits for an answer (log entries 1 and 13). -/
def Obligations.RetryBound : Prop :=
  (∀ (s : State) (g1 g2 g3 : List Byte) (rest : List Input), s.MemoryInv → s.work = none → s.edcMode = 0#1 →
    s.dlen.toNat ≤ s.ifs.toNat → s.dlen.toNat ≤ 254 → s.cfg.retryBudget = 3 →
    t1Parse 0#1 (g1.take 259) = .error .edcError → t1Parse 0#1 (g2.take 259) = .error .edcError →
    t1Parse 0#1 (g3.take 259) = .error .edcError →
    let out := frameOf s.haddr.toNat (s.a0.toNat % 8) (s.sseq.toNat * 64) (octetsAt s.db.read 0 s.dlen.toNat)
    let rb := frameOf s.haddr.toNat (s.a0.toNat % 8) (0x81 + s.rseq.toNat * 16) []
    (s.inputs = .line (.ok g1) :: .line (.ok g2) :: .line (.ok g3) :: rest →
      ∃ t, exec .t1xmit s = .next t ∧ t.slot 0#1 = rb ∧ t.slot 1#1 = rb ∧ t = { s with
        ls0 := t.ls0, ls1 := t.ls1, ls0len := 4#16, ls1len := 4#16
        sseq := s.sseq ^^^ 1#1, xcnt := s.xcnt + 3#32, err := 0x21#8, subErr := 0#8, status := 4#32
        inputs := rest }) ∧
    (s.inputs = [] → ∃ t, exec .t1xmit s = .next t ∧ t.lineOut = some (out, s.bwt)) ∧
    (s.inputs = [.line (.ok g1)] → ∃ t, exec .t1xmit s = .next t ∧ t.lineOut = some (rb, s.bwt)) ∧
    (s.inputs = [.line (.ok g1), .line (.ok g2)] → ∃ t, exec .t1xmit s = .next t ∧ t.lineOut = some (rb, s.bwt))) ∧
  (∀ s t : State, s.work = none → exec .t1xmit s = .next t →
    ∃ k, k ≤ s.cfg.retryBudget ∧ t.xcnt = s.xcnt + BitVec.ofNat 32 k) ∧
  (∀ s t : State, s.work = none → exec .t1open s = .next t →
    ∃ k, k ≤ s.cfg.openAttempts * 2 * s.cfg.retryBudget ∧ t.xcnt = s.xcnt + BitVec.ofNat 32 k)

/-- 10_state R24, 60_exceptions R233, R236, R237, 70_reset_and_hazards R271: a command that was started ends without
error (STATUS 2, ERR 0), ends with an error of its own row (STATUS 4; SUBERR 0 but after InitFailed; UnexpectedBlock
only under `fail`), or is a T=1 command that waits for an answer (STATUS 1). -/
def Obligations.CommandsEndOrWait : Prop :=
  ∀ (i : Instr) (s t : State), i.format = .cmd → s.status = 1#32 → s.err = 0#8 → s.subErr = 0#8 → s.work = none →
    exec i s = .next t →
    (t.status = 2#32 ∧ t.err = 0#8 ∧ t.subErr = 0#8 ∧ t.work = none) ∨
    (t.status = 4#32 ∧ t.work = none ∧ ∃ e ∈ errorsOf i, t.err = e.code ∧
      (e = .unexpectedBlock → s.cfg.unknownReply = .fail) ∧
      (t.subErr = 0#8 ∨ (e = .initFailed ∧ t.subErr ∈ subErrorCodes))) ∨
    ((i = .t1open ∨ i = .t1xmit) ∧ t.status = 1#32 ∧ t.err = 0#8 ∧ t.subErr = 0#8 ∧ t.work.isSome = true)

/-- 60_exceptions R235, R233, 41_tlv_unit R140, 42_t1_block_unit R170: a command of the tag, TLV, block or system
family that ends with an error has changed nothing but STATUS, ERR and SUBERR, and the error is one of its row. -/
def Obligations.TransactionalErrorsChangeNothing : Prop :=
  ∀ (i : Instr) (s t : State), i ∈ transactional → exec i s = .next t → t.status ≠ 2#32 →
    ∃ e ∈ errorsOf i, t = { s with err := e.code, subErr := 0#8, status := 4#32 }

/-- 43_t1_protocol R204, 10_state R46: a T1OPEN or T1XMIT that does not end without error has written the session
registers, the slots, XCNT and the error registers at most; DB, DLEN, R0 to R3 and IFS are as before. -/
def Obligations.ProtocolErrorsKeepResults : Prop :=
  ∀ (i : Instr) (s t : State), (i = .t1open ∨ i = .t1xmit) → exec i s = .next t → t.status ≠ 2#32 →
    t = { s with
      sseq := t.sseq, rseq := t.rseq, ls0 := t.ls0, ls1 := t.ls1, ls0len := t.ls0len, ls1len := t.ls1len
      xcnt := t.xcnt, err := t.err, subErr := t.subErr, status := t.status, work := t.work, inputs := t.inputs }

/-- 00_scope R2: no command of the BER-TLV half reads or writes T=1 state, and no command or received block of the T=1
half reads or writes BER-TLV state: replacing the other half before or after comes to the same. -/
def Obligations.HalvesShareNoState : Prop :=
  (∀ (i : Instr) (s t u : State), i ∈ tlvHalf → exec i s = .next t →
    exec i (s.withT1Of u) = .next (t.withT1Of u) ∧ t = t.withT1Of s) ∧
  (∀ (i : Instr) (s t u : State), (i ∈ t1Half ∨ i.format = .pcb) → exec i s = .next t →
    exec i (s.withTlvOf u) = .next (t.withTlvOf u) ∧ t = t.withTlvOf s)

/-- 10_state R21, R25, R30: no command but SRST, and no received block, writes CMD, A0 to A3, EDCMODE, HADDR, DADDR or
BWT; nor the model's own fields `cfg` and `hostData`. -/
def Obligations.CommandsKeepHostRegisters : Prop :=
  ∀ (i : Instr) (s t : State), i ≠ .srst → exec i s = .next t →
    t.cmd = s.cmd ∧ t.a0 = s.a0 ∧ t.a1 = s.a1 ∧ t.a2 = s.a2 ∧ t.a3 = s.a3 ∧ t.edcMode = s.edcMode ∧
      t.haddr = s.haddr ∧ t.daddr = s.daddr ∧ t.bwt = s.bwt ∧ t.cfg = s.cfg ∧ t.hostData = s.hostData

/-- 30_encoding R86, R88: decoding inverts encoding for every Tag and every length below 2^32, whatever follows, and
the encoding has the size the spec tabulates; the first continuation octet of a tag is never 0x80. -/
def Obligations.TagAndLengthInverse : Prop :=
  (∀ (t : Tag) (x : List Byte), tagDecode (tagEncode t ++ x) = .ok (t, x) ∧
    (tagEncode t).length = tagSize t.number.toNat ∧ (tagEncode t)[1]? ≠ some 0x80#8) ∧
  (∀ (l : Nat) (x : List Byte), l < 2 ^ 32 → lenDecode (lenEncode l ++ x) = .ok (l, x) ∧
    (lenEncode l).length = lenSize l)

/-- 41_tlv_unit R146, R155: where TLVSER of node `x` succeeds, TLVPARSEAT at the old TLEN gives a root structurally
equal to `x` with R1 the new TLEN, and can fail with ArenaFull alone. -/
def Obligations.ParseAfterSerialize : Prop :=
  ∀ s t u : State, s.MemoryInv → s.ArenaInv → exec .tlvser s = .next t → t.status = 2#32 →
    exec .tlvparseat { t with a0 := s.tlen } = .next u →
    (u.status = 4#32 ∧ u.err = 0x46#8) ∨
    (u.status = 2#32 ∧ u.r1 = t.tlen ∧ parentOf u.nodes u.r0.toNat = none ∧ s.nodes.length ≤ u.r0.toNat ∧
      treeAt u.nodes.length u.nodes u.r0.toNat = treeAt s.nodes.length s.nodes s.a0.toNat)

/-- 42_t1_block_unit R177: one bit inverted in a good frame is an EdcError, in LEN a LengthMismatch; the same bit
inverted in two octets other than LEN is not detected. -/
def Obligations.LrcDetectsSingleBit : Prop :=
  ∀ (raw : List Byte) (k : Nat), GoodFrame raw → k < 8 →
    (∀ j < raw.length, t1Parse 0#1 (flipBit raw j k) = .error (if j = 2 then .lengthMismatch else .edcError)) ∧
    (∀ i < raw.length, ∀ j < raw.length, i ≠ j → i ≠ 2 → j ≠ 2 → GoodFrame (flipBit (flipBit raw i k) j k))

/-- The invariants hold after the hardware reset, of the machine and of one with any parameters 00_scope R4 and R5
admit (10_state R24, R29, R39, R47). -/
def Obligations.ResetMeetsInvariants : Prop :=
  State.reset.Inv ∧ ∀ c : Config, c.WellFormed → (State.resetWith c).Inv

/-- 20_memory R60, 10_state R21: every step keeps every byte space canonical and inside its size, and TLEN, FLEN,
LS0LEN and LS1LEN in their ranges. -/
def Obligations.StepKeepsMemory : Prop :=
  ∀ s t : State, s.MemoryInv → s.CountInv → step s = .next t → t.MemoryInv ∧ t.CountInv

/-- 10_state R24, 60_exceptions R231, R237: every step keeps STATUS one of its four values, ERRF = 1 exactly when ERR
is not 0, ERR and SUBERR in their tables, and BUSY = 1 exactly while a T=1 command waits. -/
def Obligations.StepKeepsStatus : Prop :=
  ∀ s t : State, s.StatusInv → step s = .next t → t.StatusInv

/-- 10_state R29, R46, 43_t1_protocol R192, R202: every step keeps each slot empty or one complete I-block or R-block,
and the working storage with a well-formed outbound frame, of the kinds T1XMIT sends, and counters in range. -/
def Obligations.StepKeepsProtocol : Prop :=
  ∀ s t : State, s.StatusInv → s.ProtocolInv → step s = .next t → t.ProtocolInv

/-- 10_state R39: every step keeps the arena a forest of ordered trees whose bodies follow their tags, whose lengths
are right, whose value octets VUSED counts and whose depth is at most DEPTH_MAX. -/
def Obligations.StepKeepsArena : Prop :=
  ∀ s t : State, s.ArenaInv → step s = .next t → t.ArenaInv

/-- The model's reading of atomicity (log entry 1; 00_scope R8, 20_memory R72): a command with its answers in one step
comes to the same state as the command and then one answer at a time. -/
def Obligations.AnswersOneByOne : Prop :=
  ∀ (s : State) (v : Word) (as : List Answer), s.busy = false → s.work = none →
    ∃ t, step { s with inputs := .host (.writeReg 0 v) :: as.map .line } = .next t ∧
      feed (.host (.writeReg 0 v) :: as.map .line) s = .next { t with inputs := [] }

/-- 70_reset_and_hazards R271. Under the named assumption `ExchangesReturn` (log entry 21), that every `exchange` call
of the command returns, a T1OPEN or T1XMIT that was started ends, and so does one that waits, at any point of it. While
no call returns and no hardware reset comes, it waits with BUSY = 1 for ever, whatever the HOST does, with no timeout;
the hardware reset ends it. Every other command ends in its one step. That a waiting command is a state between two
steps is the model's choice (log entries 1 and 13). -/
def Obligations.CommandsEndIfExchangesReturn : Prop :=
  (∀ (s : State) (v : Word) (es : List Input) (i : Instr), s.busy = false → s.work = none →
    s.inputs = .host (.writeReg 0 v) :: es → decodeCommand (v.setWidth 8) = .ok i → (i = .t1open ∨ i = .t1xmit) →
    ExchangesReturn (exchangesOf s.cfg i) es →
    ∃ n t, n ≤ es.length ∧ run (n + 1) s = .next t ∧ t.Ended ∧ t.cmd = v.setWidth 8) ∧
  (∀ (s : State) (w : Work), s.busy = true → s.work = some w → ExchangesReturn (w.exchangesLeft s.cfg) s.inputs →
    ∃ n t, n ≤ s.inputs.length ∧ run n s = .next t ∧ t.Ended ∧ t.cmd = s.cmd) ∧
  (∀ (s : State) (w : Work) (n : Nat), s.busy = true → s.work = some w → (∀ e ∈ s.inputs, ∃ a, e = .host a) →
    ∃ t, run n s = .next t ∧ t = { s with inputs := t.inputs, hostData := t.hostData }) ∧
  (∀ (s : State) (rest : List Input), s.inputs = .hardReset :: rest →
    ∃ t, step s = .next t ∧ t.work = none ∧ t.status = 0#32) ∧
  (∀ (i : Instr) (s : State), i.format = .cmd → i ≠ .t1open → i ≠ .t1xmit → s.work = none →
    ∃ t, exec i s = .next t ∧ t.Ended)

end
end

