-- ==== Sys2Proof/Laws/Arena.lean ====
section
/-! SUPPORT. Changing one node of the arena, and what `relength` leaves alone. -/

namespace Sys2Proof.Machine

@[simp] theorem length_updateNode (ns : List Node) (x : Nat) (f : Node → Node) :
    (updateNode ns x f).length = ns.length := by
  unfold updateNode
  split <;> simp

/-- Reading the arena after one node was changed. -/
theorem getElem?_updateNode (ns : List Node) (x y : Nat) (f : Node → Node) :
    (updateNode ns x f)[y]? = if y = x then ns[y]?.map f else ns[y]? := by
  unfold updateNode
  split
  · rename_i n hn
    by_cases h : y = x
    · subst h
      have hlt : y < ns.length := (List.getElem?_eq_some_iff.1 hn).1
      rw [if_pos rfl, List.getElem?_set_self hlt, hn]
      rfl
    · rw [if_neg h, List.getElem?_set_ne (Ne.symm h)]
  · rename_i hn
    split
    · subst_vars; simp [hn]
    · rfl

/-- A node but for its length. -/
def Node.shape (n : Node) : Node := { n with length := 0 }

/-- One level of `relength` changes no tag, body or parent. -/
theorem shape_relengthAt (ns : List Node) (x y : Nat) :
    ((relengthAt ns x)[y]?).map Node.shape = (ns[y]?).map Node.shape := by
  unfold relengthAt
  rw [getElem?_updateNode]
  split
  · cases ns[y]? with
    | none => rfl
    | some n =>
      simp only [Option.map_some]
      congr 1
      split <;> rfl
  · rfl

@[simp] theorem length_relengthAt (ns : List Node) (x : Nat) : (relengthAt ns x).length = ns.length :=
  length_updateNode ns x _

/-- `relength` changes no tag, body or parent (41_tlv_unit R148). -/
theorem shape_relength (ns : List Node) (x y : Nat) :
    ((relength ns x)[y]?).map Node.shape = (ns[y]?).map Node.shape := by
  unfold relength
  generalize pathUp ns.length ns x = path
  induction path generalizing ns with
  | nil => rfl
  | cons z path ih => rw [List.foldl_cons, ih, shape_relengthAt]

@[simp] theorem length_relength (ns : List Node) (x : Nat) : (relength ns x).length = ns.length := by
  unfold relength
  generalize pathUp ns.length ns x = path
  induction path generalizing ns with
  | nil => rfl
  | cons z path ih => rw [List.foldl_cons, ih, length_relengthAt]

/-- `relength` leaves the length of every node off the path up alone (41_tlv_unit R148). -/
theorem relength_of_notMem {ns : List Node} {x y : Nat} (h : y ∉ pathUp ns.length ns x) :
    (relength ns x)[y]? = ns[y]? := by
  unfold relength
  generalize pathUp ns.length ns x = path at h
  induction path generalizing ns with
  | nil => rfl
  | cons z path ih =>
    rw [List.mem_cons, not_or] at h
    rw [List.foldl_cons, ih h.2]
    unfold relengthAt
    rw [getElem?_updateNode, if_neg h.1]

/-- The length of one level of `relength` is the sum of the children's sizes before it. -/
theorem relengthAt_cons {ns : List Node} {x : Nat} {n : Node} {kids : List Nat} (hn : ns[x]? = some n)
    (hb : n.body = .cons kids) : (relengthAt ns x)[x]? = some { n with length := sizeSum ns kids } := by
  unfold relengthAt
  rw [getElem?_updateNode, if_pos rfl, hn]
  simp [hb]

theorem relengthAt_prim {ns : List Node} {x : Nat} {n : Node} {v : List Byte} (hn : ns[x]? = some n)
    (hb : n.body = .prim v) : (relengthAt ns x)[x]? = some n := by
  unfold relengthAt
  rw [getElem?_updateNode, if_pos rfl, hn]
  simp [hb]

/-- Nodes of one shape have one parent, so a path up does not see a change of lengths. -/
theorem pathUp_of_parents {ns ns' : List Node} (h : ∀ y, parentOf ns y = parentOf ns' y) (fuel x : Nat) :
    pathUp fuel ns x = pathUp fuel ns' x := by
  induction fuel generalizing x with
  | zero => rfl
  | succ k ih =>
    simp only [pathUp, h x]
    cases parentOf ns' x with
    | none => rfl
    | some p => simp only [ih]

/-- The node a search of TLVFIND gives is on the list and matches, and no id before it does (41_tlv_unit R147). -/
theorem findMatch_some {ns : List Node} {w : Word} {xs : List Nat} {c : Nat} (h : findMatch ns w xs = some c) :
    ∃ as bs n, xs = as ++ c :: bs ∧ ns[c]? = some n ∧ matchesWord w n = true ∧
      ∀ a ∈ as, ∀ m, ns[a]? = some m → matchesWord w m = false := by
  induction xs with
  | nil => simp [findMatch] at h
  | cons x xs ih =>
    unfold findMatch at h
    split at h
    · rename_i n hn
      split at h
      · rename_i hm
        simp only [Option.some.injEq] at h
        subst h
        exact ⟨[], xs, n, rfl, hn, hm, by simp⟩
      · rename_i hm
        obtain ⟨as, bs, n', rfl, hn', hm', hall⟩ := ih h
        refine ⟨x :: as, bs, n', rfl, hn', hm', fun a ha m hget => ?_⟩
        rcases List.mem_cons.1 ha with rfl | ha
        · rw [hn] at hget
          cases hget
          simpa using hm
        · exact hall a ha m hget
    · rename_i hn
      obtain ⟨as, bs, n', rfl, hn', hm', hall⟩ := ih h
      refine ⟨x :: as, bs, n', rfl, hn', hm', fun a ha m hget => ?_⟩
      rcases List.mem_cons.1 ha with rfl | ha
      · rw [hn] at hget; cases hget
      · exact hall a ha m hget

/-- No id is given exactly when no node of the list matches. -/
theorem findMatch_none {ns : List Node} {w : Word} {xs : List Nat} :
    findMatch ns w xs = none ↔ ∀ a ∈ xs, ∀ m, ns[a]? = some m → matchesWord w m = false := by
  induction xs with
  | nil => simp [findMatch]
  | cons x xs ih =>
    unfold findMatch
    cases hn : ns[x]? with
    | none => simp [ih, hn]
    | some n =>
      simp only [List.mem_cons, forall_eq_or_imp, hn, Option.some.injEq, forall_eq']
      split
      · simp_all
      · simp_all

end Sys2Proof.Machine
end

