-- ==== Sys2Proof/Laws/Ber.lean ====
section
/-! SUPPORT. How many octets the BER functions make and take, and that a parse takes at least two octets for each node,
so that the bound on the child loop of `parseNode` is never what ends it. -/

namespace Sys2Proof.Machine

@[simp] theorem length_tagGroups (k n : Nat) : (tagGroups k n).length = k := by
  induction k with
  | zero => rfl
  | succ k ih => simp [tagGroups, ih]

@[simp] theorem length_lenOctets (k l : Nat) : (lenOctets k l).length = k := by
  induction k with
  | zero => rfl
  | succ k ih => simp [lenOctets, ih]

/-- `tag_size` is the number of octets of the encoding (30_encoding R86). -/
theorem length_tagEncode (t : Tag) : (tagEncode t).length = tagSize t.number.toNat := by
  unfold tagEncode tagSize
  split
  · rfl
  · simp only [List.length_cons, length_tagGroups]
    split_ifs <;> rfl

/-- `len_size` is the number of octets of the encoding (30_encoding R88). -/
theorem length_lenEncode (l : Nat) : (lenEncode l).length = lenSize l := by
  unfold lenEncode lenSize
  split
  · rfl
  · simp only [List.length_cons, length_lenOctets]
    split_ifs <;> rfl

theorem tagSize_pos (n : Nat) : 1 ≤ tagSize n := by unfold tagSize; split_ifs <;> omega
theorem tagSize_le (n : Nat) : tagSize n ≤ 5 := by unfold tagSize; split_ifs <;> omega
theorem lenSize_pos (l : Nat) : 1 ≤ lenSize l := by unfold lenSize; split_ifs <;> omega
theorem lenSize_le (l : Nat) : lenSize l ≤ 5 := by unfold lenSize; split_ifs <;> omega

/-- A tag number takes at least one octet and stays below 2^28 (30_encoding R85). -/
theorem tagNumber_ok {bs : List Byte} {n m : Nat} {rest : List Byte} (h : tagNumber n bs = .ok (m, rest)) :
    rest.length < bs.length ∧ m < 2 ^ 28 := by
  induction bs generalizing n with
  | nil => simp [tagNumber] at h
  | cons g bs ih =>
    unfold tagNumber at h
    split at h
    · simp at h
    · rename_i hn
      have hg : (g.extractLsb' 0 7).toNat < 2 ^ 7 := (g.extractLsb' 0 7).isLt
      simp only at h
      split at h
      · have := ih h
        simp only [List.length_cons]
        omega
      · simp only [Except.ok.injEq, Prod.mk.injEq] at h
        obtain ⟨rfl, rfl⟩ := h
        simp only [List.length_cons]
        omega

/-- The only error of a tag number (30_encoding R85). -/
theorem tagNumber_error {bs : List Byte} {n : Nat} {e : Err} (h : tagNumber n bs = .error e) : e = .malformedTag := by
  induction bs generalizing n with
  | nil => simpa [tagNumber] using h.symm
  | cons g bs ih =>
    unfold tagNumber at h
    split at h
    · simpa using h.symm
    · simp only at h
      split at h
      · exact ih h
      · simp at h

/-- A tag takes at least one octet. -/
theorem tagDecode_ok {bs rest : List Byte} {t : Tag} (h : tagDecode bs = .ok (t, rest)) : rest.length < bs.length := by
  cases bs with
  | nil => simp [tagDecode] at h
  | cons f bs =>
    simp only [tagDecode] at h
    split at h
    · split at h
      · rename_i hn
        simp only [Except.ok.injEq, Prod.mk.injEq] at h
        have := (tagNumber_ok hn).1
        simp only [List.length_cons, ← h.2]
        omega
      · simp at h
    · simp only [Except.ok.injEq, Prod.mk.injEq] at h
      simp [← h.2]

/-- The only error of a tag (30_encoding R85). -/
theorem tagDecode_error {bs : List Byte} {e : Err} (h : tagDecode bs = .error e) : e = .malformedTag := by
  cases bs with
  | nil => simpa [tagDecode] using h.symm
  | cons f bs =>
    simp only [tagDecode] at h
    split at h
    · split at h
      · simp at h
      · rename_i hn
        simp only [Except.error.injEq] at h
        exact h ▸ tagNumber_error hn
    · simp at h

theorem bigEndian_append (as : List Byte) (b : Byte) : bigEndian (as ++ [b]) = bigEndian as * 256 + b.toNat := by
  simp [bigEndian, List.foldl_append]

/-- `k` octets hold a number below 256^k. -/
theorem bigEndian_lt (bs : List Byte) : bigEndian bs < 256 ^ bs.length := by
  induction bs using List.reverseRecOn with
  | nil => simp [bigEndian]
  | append_singleton as b ih =>
    have hb : b.toNat < 256 := b.isLt
    rw [bigEndian_append, List.length_append, List.length_singleton, Nat.pow_succ]
    omega

/-- A length takes at least one octet and is below 2^32 (30_encoding R87). -/
theorem lenDecode_ok {bs rest : List Byte} {l : Nat} (h : lenDecode bs = .ok (l, rest)) :
    rest.length < bs.length ∧ l < 2 ^ 32 := by
  cases bs with
  | nil => simp [lenDecode] at h
  | cons f bs =>
    simp only [lenDecode] at h
    split at h
    · split at h
      · simp at h
      · split at h
        · simp at h
        · rename_i hk hl
          simp only [Except.ok.injEq, Prod.mk.injEq] at h
          obtain ⟨rfl, rfl⟩ := h
          refine ⟨by simp only [List.length_drop, List.length_cons]; omega, ?_⟩
          have h1 := bigEndian_lt (bs.take (f.extractLsb' 0 7).toNat)
          have h2 : (bs.take (f.extractLsb' 0 7).toNat).length ≤ 4 := by simp only [List.length_take]; omega
          calc _ < _ := h1
            _ ≤ 256 ^ 4 := Nat.pow_le_pow_right (by omega) h2
            _ = 2 ^ 32 := by norm_num
    · simp only [Except.ok.injEq, Prod.mk.injEq] at h
      obtain ⟨rfl, rfl⟩ := h
      have : f.toNat < 2 ^ 8 := f.isLt
      simp only [List.length_cons]
      omega

/-- The only error of a length (30_encoding R87). -/
theorem lenDecode_error {bs : List Byte} {e : Err} (h : lenDecode bs = .error e) : e = .malformedTlv := by
  cases bs with
  | nil => simpa [lenDecode] using h.symm
  | cons f bs =>
    simp only [lenDecode] at h
    split at h
    · split at h
      · simpa using h.symm
      · split at h
        · simpa using h.symm
        · simp at h
    · simp at h

/-- What a parse of one node that succeeds is (41_tlv_unit R141). -/
theorem parseNode_ok {levels : Nat} {w rest : List Byte} {tr : Tree} (h : parseNode levels w = .ok (tr, rest)) :
    ∃ k t w1 l w2, levels = k + 1 ∧ tagDecode w = .ok (t, w1) ∧ lenDecode w1 = .ok (l, w2) ∧ l ≤ w2.length ∧
      rest = w2.drop l ∧
      ((t.constructed = true ∧ ∃ ts, parseKids (parseNode k) l (w2.take l) = .ok ts ∧ tr = .cons t ts) ∨
       (t.constructed = false ∧ tr = .prim t (w2.take l))) := by
  cases levels with
  | zero => simp [parseNode] at h
  | succ k =>
    unfold parseNode at h
    split at h
    · simp at h
    · rename_i t w1 ht
      split at h
      · simp at h
      · rename_i l w2 hl
        split at h
        · simp at h
        · split at h
          · rename_i hlen hc
            split at h
            · simp at h
            · rename_i ts hts
              simp only [Except.ok.injEq, Prod.mk.injEq] at h
              exact ⟨k, t, w1, l, w2, rfl, ht, hl, by omega, h.2.symm, .inl ⟨hc, ts, hts, h.1.symm⟩⟩
          · rename_i hlen hc
            simp only [Except.ok.injEq, Prod.mk.injEq] at h
            exact ⟨k, t, w1, l, w2, rfl, ht, hl, by omega, h.2.symm, .inr ⟨by simpa using hc, h.1.symm⟩⟩

/-- A node takes at least two octets, its tag and its length (70_reset R271). -/
theorem parseNode_takes {levels : Nat} {w rest : List Byte} {tr : Tree} (h : parseNode levels w = .ok (tr, rest)) :
    rest.length + 2 ≤ w.length := by
  obtain ⟨k, t, w1, l, w2, -, ht, hl, -, rfl, -⟩ := parseNode_ok h
  have h1 := tagDecode_ok ht
  have h2 := (lenDecode_ok hl).1
  simp only [List.length_drop]
  omega

/-- What a parse of a child list that succeeds is. -/
theorem parseKids_ok {p : List Byte → Except Err (Tree × List Byte)} {fuel : Nat} {w : List Byte} {ts : List Tree}
    (h : parseKids p fuel w = .ok ts) :
    (w = [] ∧ ts = []) ∨
      ∃ k t w' ts', fuel = k + 1 ∧ w ≠ [] ∧ p w = .ok (t, w') ∧ parseKids p k w' = .ok ts' ∧ ts = t :: ts' := by
  cases w with
  | nil => exact .inl ⟨rfl, by simpa [parseKids] using h.symm⟩
  | cons b w =>
    cases fuel with
    | zero => simp [parseKids] at h
    | succ k =>
      unfold parseKids at h
      split at h
      · simp at h
      · rename_i t w' hp
        split at h
        · simp at h
        · rename_i ts' hts
          exact .inr ⟨k, t, w', ts', rfl, by simp, hp, hts, by simpa using h.symm⟩

/-- More fuel than octets makes no difference: the child loop is ended by its window, never by its fuel. -/
theorem parseKids_fuel {p : List Byte → Except Err (Tree × List Byte)}
    (hp : ∀ w t w', p w = .ok (t, w') → w'.length < w.length) {fuel more : Nat} {w : List Byte}
    (hw : w.length ≤ fuel) : parseKids p (fuel + more) w = parseKids p fuel w := by
  induction fuel generalizing w with
  | zero =>
    have : w = [] := List.length_eq_zero_iff.1 (by omega)
    subst this
    cases more <;> rfl
  | succ k ih =>
    cases w with
    | nil => rw [Nat.add_right_comm]; rfl
    | cons b w =>
      rw [Nat.add_right_comm]
      unfold parseKids
      cases hpw : p (b :: w) with
      | error e => rfl
      | ok r =>
        obtain ⟨t, w'⟩ := r
        have := hp _ _ _ hpw
        simp only
        rw [ih (by simp only [List.length_cons] at this hw; omega)]

mutual
/-- A tree's `size` is its shortest tag and length and its content (30_encoding R90). -/
theorem Tree.size_eq : ∀ t : Tree, t.size = tagSize t.tag.number.toNat + lenSize t.length + t.length
  | .prim _ _ => rfl
  | .cons _ _ => rfl
end

mutual
/-- `commit` allocates one node for each node of the tree (41_tlv_unit R142). -/
theorem Tree.length_records : ∀ (t : Tree) (x : Nat) (p : Option Nat), (t.records x p).length = t.count
  | .prim _ _, _, _ => rfl
  | .cons _ kids, x, _ => by
    simp only [Tree.records, Tree.count, List.length_cons, Tree.length_recordsList kids (x + 1) (some x)]
    omega
/-- The same for a list of trees. -/
theorem Tree.length_recordsList : ∀ (ts : List Tree) (x : Nat) (p : Option Nat),
    (Tree.recordsList ts x p).length = Tree.countList ts
  | [], _, _ => rfl
  | t :: ts, x, p => by
    simp only [Tree.recordsList, Tree.countList, List.length_append, Tree.length_records t x p,
      Tree.length_recordsList ts (x + t.count) p]
end

end Sys2Proof.Machine
end

