-- ==== Sys2Proof/Laws/Frame.lean ====
section
/-! SUPPORT. Frames: what `mk_frame` builds, what `t1_parse` accepts, and that it accepts what `mk_frame` builds. -/

namespace Sys2Proof.Machine

@[simp] theorem lrc_nil : lrc [] = 0#8 := rfl
@[simp] theorem lrc_cons (b : Byte) (bs : List Byte) : lrc (b :: bs) = b ^^^ lrc bs := rfl

theorem lrc_append (as bs : List Byte) : lrc (as ++ bs) = lrc as ^^^ lrc bs := by
  induction as with
  | nil => simp
  | cons a as ih => simp [ih, BitVec.xor_assoc]

/-- A frame is good exactly when the exclusive or of all its octets is 0 (30_encoding R94). -/
theorem lrc_with_edc (head : List Byte) : lrc (head ++ [lrc head]) = 0#8 := by simp [lrc_append]

/-- What `mk_frame` can do (30_encoding R102). -/
theorem mkFrame_ok {mode : BitVec 1} {src dst : BitVec 3} {pcb : Byte} {data raw : List Byte} :
    mkFrame mode src dst pcb data = .ok raw ↔
      mode ≠ 1#1 ∧ data.length ≤ lenMax ∧ raw = frameHead src dst pcb data ++ [lrc (frameHead src dst pcb data)] := by
  unfold mkFrame
  split
  · simp_all
  · split
    · simp; omega
    · simp only [Except.ok.injEq, eq_comm (a := raw)]
      constructor
      · exact fun h => ⟨by assumption, by omega, h⟩
      · exact fun h => h.2.2

theorem mkFrame_error {mode : BitVec 1} {src dst : BitVec 3} {pcb : Byte} {data : List Byte} {e : Err} :
    mkFrame mode src dst pcb data = .error e ↔
      (mode = 1#1 ∧ e = .notImplemented) ∨ (mode ≠ 1#1 ∧ lenMax < data.length ∧ e = .payloadTooLarge) := by
  unfold mkFrame
  split
  · simp_all [eq_comm]
  · split <;> simp_all [eq_comm]

@[simp] theorem length_frameHead (src dst : BitVec 3) (pcb : Byte) (data : List Byte) :
    (frameHead src dst pcb data).length = data.length + 3 := rfl

/-- What `t1_parse` accepts (30_encoding R103). -/
theorem t1Parse_ok {mode : BitVec 1} {raw : List Byte} {b : Block} (h : t1Parse mode raw = .ok b) :
    mode ≠ 1#1 ∧ (raw.getD 2 0#8).toNat ≤ 254 ∧ raw.length = (raw.getD 2 0#8).toNat + 4 ∧
      lrc (raw.take (raw.length - 1)) = raw.getD (raw.length - 1) 0#8 ∧
      b = { nad := raw.getD 0 0#8, pcb := raw.getD 1 0#8, len := raw.getD 2 0#8,
            data := (raw.drop 3).take (raw.length - 4), edc := raw.getD (raw.length - 1) 0#8 } := by
  unfold t1Parse at h
  split at h
  · simp at h
  · split at h
    · simp at h
    · simp only at h
      split at h
      · simp at h
      · split at h
        · simp at h
        · split at h
          · simp at h
          · rename_i hm _ hff hlen hedc
            have hl : raw.length = (raw.getD 2 0#8).toNat + 4 := by simpa using hlen
            have h1 : (raw.getD 2 0#8).toNat + 3 = raw.length - 1 := by omega
            have h2 : (raw.getD 2 0#8).toNat = raw.length - 4 := by omega
            rw [h1] at hedc h
            have h255 : (raw.getD 2 0#8).toNat ≠ 255 := fun hc => hff (BitVec.eq_of_toNat_eq hc)
            have := (raw.getD 2 0#8).isLt
            refine ⟨hm, by omega, hl, by simpa using hedc, ?_⟩
            rw [h2] at h
            simpa using h.symm

/-- The only errors of `t1_parse` in LRC mode (30_encoding R103). -/
theorem t1Parse_error {raw : List Byte} {e : Err} (h : t1Parse 0#1 raw = .error e) :
    e = .lengthMismatch ∨ e = .edcError := by
  unfold t1Parse at h
  rw [if_neg (by decide)] at h
  split at h
  · simp_all
  · simp only at h
    split at h
    · simp_all
    · split at h
      · simp_all
      · split at h <;> simp_all

/-- `t1_parse` accepts what `mk_frame` builds, and gives back its fields (30_encoding R102, R103). -/
theorem t1Parse_frame (src dst : BitVec 3) (pcb : Byte) {data : List Byte} (h : data.length ≤ lenMax) :
    t1Parse 0#1 (frameHead src dst pcb data ++ [lrc (frameHead src dst pcb data)]) =
      .ok { nad := nad src dst, pcb := pcb, len := BitVec.ofNat 8 data.length, data := data,
            edc := lrc (frameHead src dst pcb data) } := by
  have hl : data.length ≤ 254 := h
  have hn : (BitVec.ofNat 8 data.length).toNat = data.length := by
    rw [BitVec.toNat_ofNat]; exact Nat.mod_eq_of_lt (by omega)
  have hff : BitVec.ofNat 8 data.length ≠ 0xFF#8 := fun hc => by
    have := congrArg BitVec.toNat hc
    rw [hn] at this
    simp at this
    omega
  generalize hr : lrc (frameHead src dst pcb data) = r
  have hraw : frameHead src dst pcb data ++ [r] =
      nad src dst :: pcb :: BitVec.ofNat 8 data.length :: (data ++ [r]) := rfl
  have htake : (frameHead src dst pcb data ++ [r]).take (data.length + 3) = frameHead src dst pcb data := by
    rw [List.take_append_of_le_length (by simp), List.take_of_length_le (by simp)]
  have hget : (frameHead src dst pcb data ++ [r]).getD (data.length + 3) 0#8 = r := by
    rw [List.getD_eq_getElem?_getD, List.getElem?_append_right (by simp)]
    simp
  unfold t1Parse
  rw [if_neg (by decide), if_neg (by simp)]
  have h2 : (frameHead src dst pcb data ++ [r]).getD 2 0#8 = BitVec.ofNat 8 data.length := rfl
  simp only [h2, hn]
  rw [if_neg hff, if_neg (by simp), htake, hget, hr, if_neg (by simp)]
  rw [hraw]
  simp

/-- The block view of an accepted frame is its fields (30_encoding R93, R103). -/
theorem frameFields_of_parse {mode : BitVec 1} {raw : List Byte} {b : Block} (h : t1Parse mode raw = .ok b) :
    frameFields raw = b := by
  obtain ⟨-, -, hlen, -, rfl⟩ := t1Parse_ok h
  have hne : raw ≠ [] := by
    intro hc; subst hc; simp at hlen
  unfold frameFields
  congr 1
  · rw [List.dropLast_eq_take]
    congr 1
    simp only [List.length_drop]
    omega
  · rw [List.getLastD_eq_getLast?, List.getLast?_eq_getElem?, List.getD_eq_getElem?_getD]

end Sys2Proof.Machine
end

