-- ==== Sys2Proof/Laws/Memory.lean ====
section
/-! SUPPORT. Byte spaces: read after write, what a write leaves alone, and that every operation keeps the canonical form
(`Memory.wf`), in which equal contents are equal lists. -/

namespace Sys2Proof.Machine

theorem Memory.wf_nil : Memory.wf [] := ⟨List.Pairwise.nil, by simp⟩

@[simp] theorem Memory.read_nil (a : Nat) : Memory.read [] a = 0#8 := rfl

theorem Memory.wf_cons {k : Nat} {v : Byte} {m : Memory} :
    Memory.wf ((k, v) :: m) ↔ (∀ c ∈ m, k < c.1) ∧ v ≠ Memory.unlisted ∧ Memory.wf m := by
  simp only [Memory.wf, List.pairwise_cons, List.forall_mem_cons]
  tauto

/-- An address below every listed one reads as unlisted. -/
theorem Memory.read_of_lt {m : Memory} {a : Nat} (h : ∀ c ∈ m, a < c.1) : m.read a = Memory.unlisted := by
  induction m with
  | nil => rfl
  | cons c m ih =>
    obtain ⟨k, v⟩ := c
    have hk : a < k := h (k, v) (by simp)
    simp only [Memory.read, if_neg (Nat.ne_of_gt hk)]
    exact ih fun d hd => h d (by simp [hd])

/-- A write leaves every other address alone, in any list of cells. -/
theorem Memory.read_write_other (m : Memory) {a x : Nat} (b : Byte) (h : x ≠ a) :
    (m.write a b).read x = m.read x := by
  induction m with
  | nil =>
    simp only [Memory.write]
    split <;> simp [Memory.read, Ne.symm h, Memory.unlisted]
  | cons c m ih =>
    obtain ⟨k, v⟩ := c
    simp only [Memory.write]
    split
    · split <;> simp [Memory.read, Ne.symm h]
    · split
      · subst_vars; split <;> simp [Memory.read, Ne.symm h]
      · simp [Memory.read, ih]

/-- A read gives what was written, in the canonical form. -/
theorem Memory.read_write_same {m : Memory} (hm : m.wf) (a : Nat) (b : Byte) : (m.write a b).read a = b := by
  induction m with
  | nil =>
    simp only [Memory.write]
    split
    · subst_vars; rfl
    · simp [Memory.read]
  | cons c m ih =>
    obtain ⟨k, v⟩ := c
    obtain ⟨hlt, -, hm⟩ := Memory.wf_cons.1 hm
    simp only [Memory.write]
    split
    · rename_i hak
      split
      · subst_vars
        refine Memory.read_of_lt fun d hd => ?_
        rcases List.mem_cons.1 hd with rfl | hd
        · exact hak
        · exact Nat.lt_trans hak (hlt d hd)
      · simp [Memory.read]
    · split
      · subst_vars
        split
        · subst_vars; exact Memory.read_of_lt hlt
        · simp [Memory.read]
      · rename_i hne
        simp [Memory.read, Ne.symm hne, ih hm]

/-- Read after write, both cases. -/
theorem Memory.read_write {m : Memory} (hm : m.wf) (a x : Nat) (b : Byte) :
    (m.write a b).read x = if x = a then b else m.read x := by
  split
  · subst_vars; exact Memory.read_write_same hm _ b
  · exact Memory.read_write_other m b ‹_›

/-- The cells after a write are the written one and old ones. -/
theorem Memory.mem_write {m : Memory} {a : Nat} {b : Byte} {c : Host.Cell} (h : c ∈ m.write a b) :
    c = (a, b) ∧ b ≠ Memory.unlisted ∨ c ∈ m := by
  induction m with
  | nil =>
    simp only [Memory.write] at h
    split at h
    · simp at h
    · exact .inl ⟨by simpa using h, ‹_›⟩
  | cons d m ih =>
    obtain ⟨k, v⟩ := d
    simp only [Memory.write] at h
    split at h
    · split at h
      · exact .inr h
      · rcases List.mem_cons.1 h with rfl | h
        · exact .inl ⟨rfl, ‹_›⟩
        · exact .inr h
    · split at h
      · split at h
        · exact .inr (List.mem_cons_of_mem _ h)
        · rcases List.mem_cons.1 h with rfl | h
          · exact .inl ⟨rfl, ‹_›⟩
          · exact .inr (List.mem_cons_of_mem _ h)
      · rcases List.mem_cons.1 h with rfl | h
        · exact .inr (by simp)
        · rcases ih h with h | h
          · exact .inl h
          · exact .inr (List.mem_cons_of_mem _ h)

/-- A write keeps the canonical form. -/
theorem Memory.write_wf {m : Memory} (hm : m.wf) (a : Nat) (b : Byte) : (m.write a b).wf := by
  induction m with
  | nil =>
    simp only [Memory.write]
    split
    · exact Memory.wf_nil
    · exact Memory.wf_cons.2 ⟨by simp, ‹_›, Memory.wf_nil⟩
  | cons c m ih =>
    obtain ⟨k, v⟩ := c
    have hm' := hm
    obtain ⟨hlt, hv, hm⟩ := Memory.wf_cons.1 hm
    simp only [Memory.write]
    split
    · rename_i hak
      split
      · exact hm'
      · refine Memory.wf_cons.2 ⟨fun d hd => ?_, ‹_›, hm'⟩
        rcases List.mem_cons.1 hd with rfl | hd
        · exact hak
        · exact Nat.lt_trans hak (hlt d hd)
    · split
      · subst_vars
        split
        · exact hm
        · exact Memory.wf_cons.2 ⟨hlt, ‹_›, hm⟩
      · refine Memory.wf_cons.2 ⟨fun d hd => ?_, hv, ih hm⟩
        rcases Memory.mem_write hd with ⟨rfl, -⟩ | hd
        · simp only; omega
        · exact hlt d hd

/-- A write below a bound keeps all cells below it. -/
theorem Memory.write_fits {m : Memory} {n a : Nat} {b : Byte} (hm : ∀ c ∈ m, c.1 < n) (ha : a < n) :
    ∀ c ∈ m.write a b, c.1 < n := by
  intro c hc
  rcases Memory.mem_write hc with ⟨rfl, -⟩ | hc
  · exact ha
  · exact hm c hc

/-- A run of writes keeps the canonical form. -/
theorem Memory.writeRange_wf {m : Memory} (hm : m.wf) (a : Nat) (bs : List Byte) : (m.writeRange a bs).wf := by
  induction bs generalizing m a with
  | nil => exact hm
  | cons b bs ih => exact ih (Memory.write_wf hm a b) (a + 1)

/-- A run of writes below a bound keeps all cells below it. -/
theorem Memory.writeRange_fits {m : Memory} {n a : Nat} {bs : List Byte} (hm : ∀ c ∈ m, c.1 < n)
    (ha : a + bs.length ≤ n) : ∀ c ∈ m.writeRange a bs, c.1 < n := by
  induction bs generalizing m a with
  | nil => exact hm
  | cons b bs ih =>
    simp only [List.length_cons] at ha
    exact ih (Memory.write_fits hm (by omega)) (by omega)

/-- A run of writes leaves every address outside it alone, in any list of cells. -/
theorem Memory.read_writeRange_other (m : Memory) {a x : Nat} (bs : List Byte)
    (h : x < a ∨ a + bs.length ≤ x) : (m.writeRange a bs).read x = m.read x := by
  induction bs generalizing m a with
  | nil => rfl
  | cons b bs ih =>
    simp only [List.length_cons] at h
    simp only [Memory.writeRange]
    rw [ih (m.write a b) (by omega), Memory.read_write_other m b (by omega)]

/-- What every address reads as after a run of writes. -/
theorem Memory.read_writeRange {m : Memory} (hm : m.wf) (a x : Nat) (bs : List Byte) :
    (m.writeRange a bs).read x =
      if a ≤ x ∧ x < a + bs.length then bs.getD (x - a) 0#8 else m.read x := by
  induction bs generalizing m a with
  | nil => simp [Memory.writeRange]
  | cons b bs ih =>
    simp only [Memory.writeRange, List.length_cons, ih (Memory.write_wf hm a b), Memory.read_write hm]
    by_cases h : x = a
    · subst h
      rw [if_neg (by omega), if_pos rfl, if_pos (by omega)]
      simp
    · by_cases h1 : a + 1 ≤ x ∧ x < a + 1 + bs.length
      · rw [if_pos h1, if_pos (by omega)]
        obtain ⟨j, hj⟩ : ∃ j, x - a = j + 1 := ⟨x - a - 1, by omega⟩
        rw [hj, List.getD_cons_succ]
        congr 1
        omega
      · rw [if_neg h1, if_neg h, if_neg (by omega)]

@[simp] theorem Memory.length_readRange (m : Memory) (a n : Nat) : (m.readRange a n).length = n := by
  simp [Memory.readRange]

/-- One octet of a run. -/
theorem Memory.getD_readRange (m : Memory) (a n i : Nat) (h : i < n) (d : Byte) :
    (m.readRange a n).getD i d = m.read (a + i) := by
  simp [Memory.readRange, List.getD, h]

/-- Reading back a run that was written. -/
theorem Memory.readRange_writeRange {m : Memory} (hm : m.wf) (a : Nat) (bs : List Byte) :
    (m.writeRange a bs).readRange a bs.length = bs := by
  apply List.ext_getElem
  · simp
  · intro i h1 h2
    simp only [Memory.readRange, List.getElem_map, List.getElem_range, Memory.read_writeRange hm]
    rw [if_pos (by omega)]
    simp [List.getD, h2]

/-- In the canonical form, an address that reads as unlisted is not listed. -/
theorem Memory.read_of_mem {m : Memory} (hm : m.wf) {a : Nat} {b : Byte} (h : (a, b) ∈ m) : m.read a = b := by
  induction m with
  | nil => simp at h
  | cons c m ih =>
    obtain ⟨k, v⟩ := c
    obtain ⟨hlt, -, hm⟩ := Memory.wf_cons.1 hm
    rcases List.mem_cons.1 h with h | h
    · cases h; simp [Memory.read]
    · have := hlt _ h
      simp only at this
      simp [Memory.read, Nat.ne_of_lt this, ih hm h]

/-- Equal memories are equal data: two canonical lists that read alike are the same list. -/
theorem Memory.ext_of_wf {m m' : Memory} (hm : m.wf) (hm' : m'.wf) (h : ∀ a, m.read a = m'.read a) : m = m' := by
  induction m generalizing m' with
  | nil =>
    cases m' with
    | nil => rfl
    | cons c m' =>
      obtain ⟨k, v⟩ := c
      have := h k
      simp [Memory.read] at this
      exact absurd this.symm (Memory.wf_cons.1 hm').2.1
  | cons c m ih =>
    obtain ⟨k, v⟩ := c
    obtain ⟨hlt, hv, hmt⟩ := Memory.wf_cons.1 hm
    cases m' with
    | nil =>
      have := h k
      simp [Memory.read] at this
      exact absurd this hv
    | cons d m' =>
      obtain ⟨k', v'⟩ := d
      obtain ⟨hlt', hv', hmt'⟩ := Memory.wf_cons.1 hm'
      have hk : k = k' := by
        rcases Nat.lt_trichotomy k k' with hl | he | hg
        · have h1 := h k
          rw [Memory.read_of_lt (m := (k', v') :: m')] at h1
          · simp only [Memory.read, if_pos] at h1; exact absurd h1 hv
          · intro c hc
            rcases List.mem_cons.1 hc with rfl | hc
            · exact hl
            · exact Nat.lt_trans hl (hlt' c hc)
        · exact he
        · have h1 := h k'
          rw [Memory.read_of_lt (m := (k, v) :: m)] at h1
          · simp only [Memory.read, if_pos] at h1; exact absurd h1.symm hv'
          · intro c hc
            rcases List.mem_cons.1 hc with rfl | hc
            · exact hg
            · exact Nat.lt_trans hg (hlt c hc)
      subst hk
      have hvv : v = v' := by have := h k; simpa [Memory.read] using this
      subst hvv
      congr 1
      refine ih hmt hmt' fun a => ?_
      by_cases ha : k = a
      · subst ha
        rw [Memory.read_of_lt hlt, Memory.read_of_lt hlt']
      · have := h a
        simpa [Memory.read, ha] using this

end Sys2Proof.Machine
end

