-- ==== Sys2Proof/Laws/State.lean ====
section
/-! SUPPORT. For each named update of the state, one lemma per field, so that no later proof unfolds a record update. -/

namespace Sys2Proof.Machine

variable (s : State)

@[simp] theorem State.start_cfg (c : BitVec 8) : (s.start c).cfg = s.cfg := rfl
@[simp] theorem State.start_cmd (c : BitVec 8) : (s.start c).cmd = c := rfl
@[simp] theorem State.start_status (c : BitVec 8) : (s.start c).status = statusBusy := rfl
@[simp] theorem State.start_err (c : BitVec 8) : (s.start c).err = 0#8 := rfl
@[simp] theorem State.start_subErr (c : BitVec 8) : (s.start c).subErr = 0#8 := rfl
@[simp] theorem State.start_a0 (c : BitVec 8) : (s.start c).a0 = s.a0 := rfl
@[simp] theorem State.start_a1 (c : BitVec 8) : (s.start c).a1 = s.a1 := rfl
@[simp] theorem State.start_a2 (c : BitVec 8) : (s.start c).a2 = s.a2 := rfl
@[simp] theorem State.start_a3 (c : BitVec 8) : (s.start c).a3 = s.a3 := rfl
@[simp] theorem State.start_r0 (c : BitVec 8) : (s.start c).r0 = s.r0 := rfl
@[simp] theorem State.start_r1 (c : BitVec 8) : (s.start c).r1 = s.r1 := rfl
@[simp] theorem State.start_r2 (c : BitVec 8) : (s.start c).r2 = s.r2 := rfl
@[simp] theorem State.start_r3 (c : BitVec 8) : (s.start c).r3 = s.r3 := rfl
@[simp] theorem State.start_tlen (c : BitVec 8) : (s.start c).tlen = s.tlen := rfl
@[simp] theorem State.start_ncnt (c : BitVec 8) : (s.start c).ncnt = s.ncnt := rfl
@[simp] theorem State.start_vused (c : BitVec 8) : (s.start c).vused = s.vused := rfl
@[simp] theorem State.start_dlen (c : BitVec 8) : (s.start c).dlen = s.dlen := rfl
@[simp] theorem State.start_flen (c : BitVec 8) : (s.start c).flen = s.flen := rfl
@[simp] theorem State.start_edcMode (c : BitVec 8) : (s.start c).edcMode = s.edcMode := rfl
@[simp] theorem State.start_haddr (c : BitVec 8) : (s.start c).haddr = s.haddr := rfl
@[simp] theorem State.start_daddr (c : BitVec 8) : (s.start c).daddr = s.daddr := rfl
@[simp] theorem State.start_bwt (c : BitVec 8) : (s.start c).bwt = s.bwt := rfl
@[simp] theorem State.start_sseq (c : BitVec 8) : (s.start c).sseq = s.sseq := rfl
@[simp] theorem State.start_rseq (c : BitVec 8) : (s.start c).rseq = s.rseq := rfl
@[simp] theorem State.start_ifs (c : BitVec 8) : (s.start c).ifs = s.ifs := rfl
@[simp] theorem State.start_ls0len (c : BitVec 8) : (s.start c).ls0len = s.ls0len := rfl
@[simp] theorem State.start_ls1len (c : BitVec 8) : (s.start c).ls1len = s.ls1len := rfl
@[simp] theorem State.start_xcnt (c : BitVec 8) : (s.start c).xcnt = s.xcnt := rfl
@[simp] theorem State.start_tb (c : BitVec 8) : (s.start c).tb = s.tb := rfl
@[simp] theorem State.start_db (c : BitVec 8) : (s.start c).db = s.db := rfl
@[simp] theorem State.start_fb (c : BitVec 8) : (s.start c).fb = s.fb := rfl
@[simp] theorem State.start_ls0 (c : BitVec 8) : (s.start c).ls0 = s.ls0 := rfl
@[simp] theorem State.start_ls1 (c : BitVec 8) : (s.start c).ls1 = s.ls1 := rfl
@[simp] theorem State.start_nodes (c : BitVec 8) : (s.start c).nodes = s.nodes := rfl
@[simp] theorem State.start_work (c : BitVec 8) : (s.start c).work = s.work := rfl
@[simp] theorem State.start_inputs (c : BitVec 8) : (s.start c).inputs = s.inputs := rfl
@[simp] theorem State.start_hostData (c : BitVec 8) : (s.start c).hostData = s.hostData := rfl

@[simp] theorem State.finish_cfg : (s.finish).cfg = s.cfg := rfl
@[simp] theorem State.finish_cmd : (s.finish).cmd = s.cmd := rfl
@[simp] theorem State.finish_status : (s.finish).status = statusDone := rfl
@[simp] theorem State.finish_err : (s.finish).err = s.err := rfl
@[simp] theorem State.finish_subErr : (s.finish).subErr = s.subErr := rfl
@[simp] theorem State.finish_a0 : (s.finish).a0 = s.a0 := rfl
@[simp] theorem State.finish_a1 : (s.finish).a1 = s.a1 := rfl
@[simp] theorem State.finish_a2 : (s.finish).a2 = s.a2 := rfl
@[simp] theorem State.finish_a3 : (s.finish).a3 = s.a3 := rfl
@[simp] theorem State.finish_r0 : (s.finish).r0 = s.r0 := rfl
@[simp] theorem State.finish_r1 : (s.finish).r1 = s.r1 := rfl
@[simp] theorem State.finish_r2 : (s.finish).r2 = s.r2 := rfl
@[simp] theorem State.finish_r3 : (s.finish).r3 = s.r3 := rfl
@[simp] theorem State.finish_tlen : (s.finish).tlen = s.tlen := rfl
@[simp] theorem State.finish_ncnt : (s.finish).ncnt = s.ncnt := rfl
@[simp] theorem State.finish_vused : (s.finish).vused = s.vused := rfl
@[simp] theorem State.finish_dlen : (s.finish).dlen = s.dlen := rfl
@[simp] theorem State.finish_flen : (s.finish).flen = s.flen := rfl
@[simp] theorem State.finish_edcMode : (s.finish).edcMode = s.edcMode := rfl
@[simp] theorem State.finish_haddr : (s.finish).haddr = s.haddr := rfl
@[simp] theorem State.finish_daddr : (s.finish).daddr = s.daddr := rfl
@[simp] theorem State.finish_bwt : (s.finish).bwt = s.bwt := rfl
@[simp] theorem State.finish_sseq : (s.finish).sseq = s.sseq := rfl
@[simp] theorem State.finish_rseq : (s.finish).rseq = s.rseq := rfl
@[simp] theorem State.finish_ifs : (s.finish).ifs = s.ifs := rfl
@[simp] theorem State.finish_ls0len : (s.finish).ls0len = s.ls0len := rfl
@[simp] theorem State.finish_ls1len : (s.finish).ls1len = s.ls1len := rfl
@[simp] theorem State.finish_xcnt : (s.finish).xcnt = s.xcnt := rfl
@[simp] theorem State.finish_tb : (s.finish).tb = s.tb := rfl
@[simp] theorem State.finish_db : (s.finish).db = s.db := rfl
@[simp] theorem State.finish_fb : (s.finish).fb = s.fb := rfl
@[simp] theorem State.finish_ls0 : (s.finish).ls0 = s.ls0 := rfl
@[simp] theorem State.finish_ls1 : (s.finish).ls1 = s.ls1 := rfl
@[simp] theorem State.finish_nodes : (s.finish).nodes = s.nodes := rfl
@[simp] theorem State.finish_work : (s.finish).work = s.work := rfl
@[simp] theorem State.finish_inputs : (s.finish).inputs = s.inputs := rfl
@[simp] theorem State.finish_hostData : (s.finish).hostData = s.hostData := rfl

@[simp] theorem State.raiseSub_cfg (e : Err) (sub : BitVec 8) : (s.raiseSub e sub).cfg = s.cfg := rfl
@[simp] theorem State.raiseSub_cmd (e : Err) (sub : BitVec 8) : (s.raiseSub e sub).cmd = s.cmd := rfl
@[simp] theorem State.raiseSub_status (e : Err) (sub : BitVec 8) : (s.raiseSub e sub).status = statusErrf := rfl
@[simp] theorem State.raiseSub_err (e : Err) (sub : BitVec 8) : (s.raiseSub e sub).err = e.code := rfl
@[simp] theorem State.raiseSub_subErr (e : Err) (sub : BitVec 8) : (s.raiseSub e sub).subErr = sub := rfl
@[simp] theorem State.raiseSub_a0 (e : Err) (sub : BitVec 8) : (s.raiseSub e sub).a0 = s.a0 := rfl
@[simp] theorem State.raiseSub_a1 (e : Err) (sub : BitVec 8) : (s.raiseSub e sub).a1 = s.a1 := rfl
@[simp] theorem State.raiseSub_a2 (e : Err) (sub : BitVec 8) : (s.raiseSub e sub).a2 = s.a2 := rfl
@[simp] theorem State.raiseSub_a3 (e : Err) (sub : BitVec 8) : (s.raiseSub e sub).a3 = s.a3 := rfl
@[simp] theorem State.raiseSub_r0 (e : Err) (sub : BitVec 8) : (s.raiseSub e sub).r0 = s.r0 := rfl
@[simp] theorem State.raiseSub_r1 (e : Err) (sub : BitVec 8) : (s.raiseSub e sub).r1 = s.r1 := rfl
@[simp] theorem State.raiseSub_r2 (e : Err) (sub : BitVec 8) : (s.raiseSub e sub).r2 = s.r2 := rfl
@[simp] theorem State.raiseSub_r3 (e : Err) (sub : BitVec 8) : (s.raiseSub e sub).r3 = s.r3 := rfl
@[simp] theorem State.raiseSub_tlen (e : Err) (sub : BitVec 8) : (s.raiseSub e sub).tlen = s.tlen := rfl
@[simp] theorem State.raiseSub_ncnt (e : Err) (sub : BitVec 8) : (s.raiseSub e sub).ncnt = s.ncnt := rfl
@[simp] theorem State.raiseSub_vused (e : Err) (sub : BitVec 8) : (s.raiseSub e sub).vused = s.vused := rfl
@[simp] theorem State.raiseSub_dlen (e : Err) (sub : BitVec 8) : (s.raiseSub e sub).dlen = s.dlen := rfl
@[simp] theorem State.raiseSub_flen (e : Err) (sub : BitVec 8) : (s.raiseSub e sub).flen = s.flen := rfl
@[simp] theorem State.raiseSub_edcMode (e : Err) (sub : BitVec 8) : (s.raiseSub e sub).edcMode = s.edcMode := rfl
@[simp] theorem State.raiseSub_haddr (e : Err) (sub : BitVec 8) : (s.raiseSub e sub).haddr = s.haddr := rfl
@[simp] theorem State.raiseSub_daddr (e : Err) (sub : BitVec 8) : (s.raiseSub e sub).daddr = s.daddr := rfl
@[simp] theorem State.raiseSub_bwt (e : Err) (sub : BitVec 8) : (s.raiseSub e sub).bwt = s.bwt := rfl
@[simp] theorem State.raiseSub_sseq (e : Err) (sub : BitVec 8) : (s.raiseSub e sub).sseq = s.sseq := rfl
@[simp] theorem State.raiseSub_rseq (e : Err) (sub : BitVec 8) : (s.raiseSub e sub).rseq = s.rseq := rfl
@[simp] theorem State.raiseSub_ifs (e : Err) (sub : BitVec 8) : (s.raiseSub e sub).ifs = s.ifs := rfl
@[simp] theorem State.raiseSub_ls0len (e : Err) (sub : BitVec 8) : (s.raiseSub e sub).ls0len = s.ls0len := rfl
@[simp] theorem State.raiseSub_ls1len (e : Err) (sub : BitVec 8) : (s.raiseSub e sub).ls1len = s.ls1len := rfl
@[simp] theorem State.raiseSub_xcnt (e : Err) (sub : BitVec 8) : (s.raiseSub e sub).xcnt = s.xcnt := rfl
@[simp] theorem State.raiseSub_tb (e : Err) (sub : BitVec 8) : (s.raiseSub e sub).tb = s.tb := rfl
@[simp] theorem State.raiseSub_db (e : Err) (sub : BitVec 8) : (s.raiseSub e sub).db = s.db := rfl
@[simp] theorem State.raiseSub_fb (e : Err) (sub : BitVec 8) : (s.raiseSub e sub).fb = s.fb := rfl
@[simp] theorem State.raiseSub_ls0 (e : Err) (sub : BitVec 8) : (s.raiseSub e sub).ls0 = s.ls0 := rfl
@[simp] theorem State.raiseSub_ls1 (e : Err) (sub : BitVec 8) : (s.raiseSub e sub).ls1 = s.ls1 := rfl
@[simp] theorem State.raiseSub_nodes (e : Err) (sub : BitVec 8) : (s.raiseSub e sub).nodes = s.nodes := rfl
@[simp] theorem State.raiseSub_work (e : Err) (sub : BitVec 8) : (s.raiseSub e sub).work = s.work := rfl
@[simp] theorem State.raiseSub_inputs (e : Err) (sub : BitVec 8) : (s.raiseSub e sub).inputs = s.inputs := rfl
@[simp] theorem State.raiseSub_hostData (e : Err) (sub : BitVec 8) : (s.raiseSub e sub).hostData = s.hostData := rfl

@[simp] theorem State.raise_cfg (e : Err) : (s.raise e).cfg = s.cfg := rfl
@[simp] theorem State.raise_cmd (e : Err) : (s.raise e).cmd = s.cmd := rfl
@[simp] theorem State.raise_status (e : Err) : (s.raise e).status = statusErrf := rfl
@[simp] theorem State.raise_err (e : Err) : (s.raise e).err = e.code := rfl
@[simp] theorem State.raise_subErr (e : Err) : (s.raise e).subErr = 0#8 := rfl
@[simp] theorem State.raise_a0 (e : Err) : (s.raise e).a0 = s.a0 := rfl
@[simp] theorem State.raise_a1 (e : Err) : (s.raise e).a1 = s.a1 := rfl
@[simp] theorem State.raise_a2 (e : Err) : (s.raise e).a2 = s.a2 := rfl
@[simp] theorem State.raise_a3 (e : Err) : (s.raise e).a3 = s.a3 := rfl
@[simp] theorem State.raise_r0 (e : Err) : (s.raise e).r0 = s.r0 := rfl
@[simp] theorem State.raise_r1 (e : Err) : (s.raise e).r1 = s.r1 := rfl
@[simp] theorem State.raise_r2 (e : Err) : (s.raise e).r2 = s.r2 := rfl
@[simp] theorem State.raise_r3 (e : Err) : (s.raise e).r3 = s.r3 := rfl
@[simp] theorem State.raise_tlen (e : Err) : (s.raise e).tlen = s.tlen := rfl
@[simp] theorem State.raise_ncnt (e : Err) : (s.raise e).ncnt = s.ncnt := rfl
@[simp] theorem State.raise_vused (e : Err) : (s.raise e).vused = s.vused := rfl
@[simp] theorem State.raise_dlen (e : Err) : (s.raise e).dlen = s.dlen := rfl
@[simp] theorem State.raise_flen (e : Err) : (s.raise e).flen = s.flen := rfl
@[simp] theorem State.raise_edcMode (e : Err) : (s.raise e).edcMode = s.edcMode := rfl
@[simp] theorem State.raise_haddr (e : Err) : (s.raise e).haddr = s.haddr := rfl
@[simp] theorem State.raise_daddr (e : Err) : (s.raise e).daddr = s.daddr := rfl
@[simp] theorem State.raise_bwt (e : Err) : (s.raise e).bwt = s.bwt := rfl
@[simp] theorem State.raise_sseq (e : Err) : (s.raise e).sseq = s.sseq := rfl
@[simp] theorem State.raise_rseq (e : Err) : (s.raise e).rseq = s.rseq := rfl
@[simp] theorem State.raise_ifs (e : Err) : (s.raise e).ifs = s.ifs := rfl
@[simp] theorem State.raise_ls0len (e : Err) : (s.raise e).ls0len = s.ls0len := rfl
@[simp] theorem State.raise_ls1len (e : Err) : (s.raise e).ls1len = s.ls1len := rfl
@[simp] theorem State.raise_xcnt (e : Err) : (s.raise e).xcnt = s.xcnt := rfl
@[simp] theorem State.raise_tb (e : Err) : (s.raise e).tb = s.tb := rfl
@[simp] theorem State.raise_db (e : Err) : (s.raise e).db = s.db := rfl
@[simp] theorem State.raise_fb (e : Err) : (s.raise e).fb = s.fb := rfl
@[simp] theorem State.raise_ls0 (e : Err) : (s.raise e).ls0 = s.ls0 := rfl
@[simp] theorem State.raise_ls1 (e : Err) : (s.raise e).ls1 = s.ls1 := rfl
@[simp] theorem State.raise_nodes (e : Err) : (s.raise e).nodes = s.nodes := rfl
@[simp] theorem State.raise_work (e : Err) : (s.raise e).work = s.work := rfl
@[simp] theorem State.raise_inputs (e : Err) : (s.raise e).inputs = s.inputs := rfl
@[simp] theorem State.raise_hostData (e : Err) : (s.raise e).hostData = s.hostData := rfl

@[simp] theorem State.storeData_cfg (d : List Byte) : (s.storeData d).cfg = s.cfg := rfl
@[simp] theorem State.storeData_cmd (d : List Byte) : (s.storeData d).cmd = s.cmd := rfl
@[simp] theorem State.storeData_status (d : List Byte) : (s.storeData d).status = s.status := rfl
@[simp] theorem State.storeData_err (d : List Byte) : (s.storeData d).err = s.err := rfl
@[simp] theorem State.storeData_subErr (d : List Byte) : (s.storeData d).subErr = s.subErr := rfl
@[simp] theorem State.storeData_a0 (d : List Byte) : (s.storeData d).a0 = s.a0 := rfl
@[simp] theorem State.storeData_a1 (d : List Byte) : (s.storeData d).a1 = s.a1 := rfl
@[simp] theorem State.storeData_a2 (d : List Byte) : (s.storeData d).a2 = s.a2 := rfl
@[simp] theorem State.storeData_a3 (d : List Byte) : (s.storeData d).a3 = s.a3 := rfl
@[simp] theorem State.storeData_r0 (d : List Byte) : (s.storeData d).r0 = s.r0 := rfl
@[simp] theorem State.storeData_r1 (d : List Byte) : (s.storeData d).r1 = s.r1 := rfl
@[simp] theorem State.storeData_r2 (d : List Byte) : (s.storeData d).r2 = s.r2 := rfl
@[simp] theorem State.storeData_r3 (d : List Byte) : (s.storeData d).r3 = s.r3 := rfl
@[simp] theorem State.storeData_tlen (d : List Byte) : (s.storeData d).tlen = s.tlen := rfl
@[simp] theorem State.storeData_ncnt (d : List Byte) : (s.storeData d).ncnt = s.ncnt := rfl
@[simp] theorem State.storeData_vused (d : List Byte) : (s.storeData d).vused = s.vused := rfl
@[simp] theorem State.storeData_dlen (d : List Byte) : (s.storeData d).dlen = BitVec.ofNat 16 d.length := rfl
@[simp] theorem State.storeData_flen (d : List Byte) : (s.storeData d).flen = s.flen := rfl
@[simp] theorem State.storeData_edcMode (d : List Byte) : (s.storeData d).edcMode = s.edcMode := rfl
@[simp] theorem State.storeData_haddr (d : List Byte) : (s.storeData d).haddr = s.haddr := rfl
@[simp] theorem State.storeData_daddr (d : List Byte) : (s.storeData d).daddr = s.daddr := rfl
@[simp] theorem State.storeData_bwt (d : List Byte) : (s.storeData d).bwt = s.bwt := rfl
@[simp] theorem State.storeData_sseq (d : List Byte) : (s.storeData d).sseq = s.sseq := rfl
@[simp] theorem State.storeData_rseq (d : List Byte) : (s.storeData d).rseq = s.rseq := rfl
@[simp] theorem State.storeData_ifs (d : List Byte) : (s.storeData d).ifs = s.ifs := rfl
@[simp] theorem State.storeData_ls0len (d : List Byte) : (s.storeData d).ls0len = s.ls0len := rfl
@[simp] theorem State.storeData_ls1len (d : List Byte) : (s.storeData d).ls1len = s.ls1len := rfl
@[simp] theorem State.storeData_xcnt (d : List Byte) : (s.storeData d).xcnt = s.xcnt := rfl
@[simp] theorem State.storeData_tb (d : List Byte) : (s.storeData d).tb = s.tb := rfl
@[simp] theorem State.storeData_db (d : List Byte) : (s.storeData d).db = s.db.writeRange 0 d := rfl
@[simp] theorem State.storeData_fb (d : List Byte) : (s.storeData d).fb = s.fb := rfl
@[simp] theorem State.storeData_ls0 (d : List Byte) : (s.storeData d).ls0 = s.ls0 := rfl
@[simp] theorem State.storeData_ls1 (d : List Byte) : (s.storeData d).ls1 = s.ls1 := rfl
@[simp] theorem State.storeData_nodes (d : List Byte) : (s.storeData d).nodes = s.nodes := rfl
@[simp] theorem State.storeData_work (d : List Byte) : (s.storeData d).work = s.work := rfl
@[simp] theorem State.storeData_inputs (d : List Byte) : (s.storeData d).inputs = s.inputs := rfl
@[simp] theorem State.storeData_hostData (d : List Byte) : (s.storeData d).hostData = s.hostData := rfl

@[simp] theorem State.storeFrame_cfg (raw : List Byte) : (s.storeFrame raw).cfg = s.cfg := rfl
@[simp] theorem State.storeFrame_cmd (raw : List Byte) : (s.storeFrame raw).cmd = s.cmd := rfl
@[simp] theorem State.storeFrame_status (raw : List Byte) : (s.storeFrame raw).status = s.status := rfl
@[simp] theorem State.storeFrame_err (raw : List Byte) : (s.storeFrame raw).err = s.err := rfl
@[simp] theorem State.storeFrame_subErr (raw : List Byte) : (s.storeFrame raw).subErr = s.subErr := rfl
@[simp] theorem State.storeFrame_a0 (raw : List Byte) : (s.storeFrame raw).a0 = s.a0 := rfl
@[simp] theorem State.storeFrame_a1 (raw : List Byte) : (s.storeFrame raw).a1 = s.a1 := rfl
@[simp] theorem State.storeFrame_a2 (raw : List Byte) : (s.storeFrame raw).a2 = s.a2 := rfl
@[simp] theorem State.storeFrame_a3 (raw : List Byte) : (s.storeFrame raw).a3 = s.a3 := rfl
@[simp] theorem State.storeFrame_r0 (raw : List Byte) : (s.storeFrame raw).r0 = s.r0 := rfl
@[simp] theorem State.storeFrame_r1 (raw : List Byte) : (s.storeFrame raw).r1 = s.r1 := rfl
@[simp] theorem State.storeFrame_r2 (raw : List Byte) : (s.storeFrame raw).r2 = s.r2 := rfl
@[simp] theorem State.storeFrame_r3 (raw : List Byte) : (s.storeFrame raw).r3 = s.r3 := rfl
@[simp] theorem State.storeFrame_tlen (raw : List Byte) : (s.storeFrame raw).tlen = s.tlen := rfl
@[simp] theorem State.storeFrame_ncnt (raw : List Byte) : (s.storeFrame raw).ncnt = s.ncnt := rfl
@[simp] theorem State.storeFrame_vused (raw : List Byte) : (s.storeFrame raw).vused = s.vused := rfl
@[simp] theorem State.storeFrame_dlen (raw : List Byte) : (s.storeFrame raw).dlen = s.dlen := rfl
@[simp] theorem State.storeFrame_flen (raw : List Byte) : (s.storeFrame raw).flen = BitVec.ofNat 16 raw.length := rfl
@[simp] theorem State.storeFrame_edcMode (raw : List Byte) : (s.storeFrame raw).edcMode = s.edcMode := rfl
@[simp] theorem State.storeFrame_haddr (raw : List Byte) : (s.storeFrame raw).haddr = s.haddr := rfl
@[simp] theorem State.storeFrame_daddr (raw : List Byte) : (s.storeFrame raw).daddr = s.daddr := rfl
@[simp] theorem State.storeFrame_bwt (raw : List Byte) : (s.storeFrame raw).bwt = s.bwt := rfl
@[simp] theorem State.storeFrame_sseq (raw : List Byte) : (s.storeFrame raw).sseq = s.sseq := rfl
@[simp] theorem State.storeFrame_rseq (raw : List Byte) : (s.storeFrame raw).rseq = s.rseq := rfl
@[simp] theorem State.storeFrame_ifs (raw : List Byte) : (s.storeFrame raw).ifs = s.ifs := rfl
@[simp] theorem State.storeFrame_ls0len (raw : List Byte) : (s.storeFrame raw).ls0len = s.ls0len := rfl
@[simp] theorem State.storeFrame_ls1len (raw : List Byte) : (s.storeFrame raw).ls1len = s.ls1len := rfl
@[simp] theorem State.storeFrame_xcnt (raw : List Byte) : (s.storeFrame raw).xcnt = s.xcnt := rfl
@[simp] theorem State.storeFrame_tb (raw : List Byte) : (s.storeFrame raw).tb = s.tb := rfl
@[simp] theorem State.storeFrame_db (raw : List Byte) : (s.storeFrame raw).db = s.db := rfl
@[simp] theorem State.storeFrame_fb (raw : List Byte) : (s.storeFrame raw).fb = s.fb.writeRange 0 raw := rfl
@[simp] theorem State.storeFrame_ls0 (raw : List Byte) : (s.storeFrame raw).ls0 = s.ls0 := rfl
@[simp] theorem State.storeFrame_ls1 (raw : List Byte) : (s.storeFrame raw).ls1 = s.ls1 := rfl
@[simp] theorem State.storeFrame_nodes (raw : List Byte) : (s.storeFrame raw).nodes = s.nodes := rfl
@[simp] theorem State.storeFrame_work (raw : List Byte) : (s.storeFrame raw).work = s.work := rfl
@[simp] theorem State.storeFrame_inputs (raw : List Byte) : (s.storeFrame raw).inputs = s.inputs := rfl
@[simp] theorem State.storeFrame_hostData (raw : List Byte) : (s.storeFrame raw).hostData = s.hostData := rfl

@[simp] theorem State.storeSlot_cfg (p : BitVec 1) (raw : List Byte) : (s.storeSlot p raw).cfg = s.cfg := by unfold State.storeSlot; split <;> rfl
@[simp] theorem State.storeSlot_cmd (p : BitVec 1) (raw : List Byte) : (s.storeSlot p raw).cmd = s.cmd := by unfold State.storeSlot; split <;> rfl
@[simp] theorem State.storeSlot_status (p : BitVec 1) (raw : List Byte) : (s.storeSlot p raw).status = s.status := by unfold State.storeSlot; split <;> rfl
@[simp] theorem State.storeSlot_err (p : BitVec 1) (raw : List Byte) : (s.storeSlot p raw).err = s.err := by unfold State.storeSlot; split <;> rfl
@[simp] theorem State.storeSlot_subErr (p : BitVec 1) (raw : List Byte) : (s.storeSlot p raw).subErr = s.subErr := by unfold State.storeSlot; split <;> rfl
@[simp] theorem State.storeSlot_a0 (p : BitVec 1) (raw : List Byte) : (s.storeSlot p raw).a0 = s.a0 := by unfold State.storeSlot; split <;> rfl
@[simp] theorem State.storeSlot_a1 (p : BitVec 1) (raw : List Byte) : (s.storeSlot p raw).a1 = s.a1 := by unfold State.storeSlot; split <;> rfl
@[simp] theorem State.storeSlot_a2 (p : BitVec 1) (raw : List Byte) : (s.storeSlot p raw).a2 = s.a2 := by unfold State.storeSlot; split <;> rfl
@[simp] theorem State.storeSlot_a3 (p : BitVec 1) (raw : List Byte) : (s.storeSlot p raw).a3 = s.a3 := by unfold State.storeSlot; split <;> rfl
@[simp] theorem State.storeSlot_r0 (p : BitVec 1) (raw : List Byte) : (s.storeSlot p raw).r0 = s.r0 := by unfold State.storeSlot; split <;> rfl
@[simp] theorem State.storeSlot_r1 (p : BitVec 1) (raw : List Byte) : (s.storeSlot p raw).r1 = s.r1 := by unfold State.storeSlot; split <;> rfl
@[simp] theorem State.storeSlot_r2 (p : BitVec 1) (raw : List Byte) : (s.storeSlot p raw).r2 = s.r2 := by unfold State.storeSlot; split <;> rfl
@[simp] theorem State.storeSlot_r3 (p : BitVec 1) (raw : List Byte) : (s.storeSlot p raw).r3 = s.r3 := by unfold State.storeSlot; split <;> rfl
@[simp] theorem State.storeSlot_tlen (p : BitVec 1) (raw : List Byte) : (s.storeSlot p raw).tlen = s.tlen := by unfold State.storeSlot; split <;> rfl
@[simp] theorem State.storeSlot_ncnt (p : BitVec 1) (raw : List Byte) : (s.storeSlot p raw).ncnt = s.ncnt := by unfold State.storeSlot; split <;> rfl
@[simp] theorem State.storeSlot_vused (p : BitVec 1) (raw : List Byte) : (s.storeSlot p raw).vused = s.vused := by unfold State.storeSlot; split <;> rfl
@[simp] theorem State.storeSlot_dlen (p : BitVec 1) (raw : List Byte) : (s.storeSlot p raw).dlen = s.dlen := by unfold State.storeSlot; split <;> rfl
@[simp] theorem State.storeSlot_flen (p : BitVec 1) (raw : List Byte) : (s.storeSlot p raw).flen = s.flen := by unfold State.storeSlot; split <;> rfl
@[simp] theorem State.storeSlot_edcMode (p : BitVec 1) (raw : List Byte) : (s.storeSlot p raw).edcMode = s.edcMode := by unfold State.storeSlot; split <;> rfl
@[simp] theorem State.storeSlot_haddr (p : BitVec 1) (raw : List Byte) : (s.storeSlot p raw).haddr = s.haddr := by unfold State.storeSlot; split <;> rfl
@[simp] theorem State.storeSlot_daddr (p : BitVec 1) (raw : List Byte) : (s.storeSlot p raw).daddr = s.daddr := by unfold State.storeSlot; split <;> rfl
@[simp] theorem State.storeSlot_bwt (p : BitVec 1) (raw : List Byte) : (s.storeSlot p raw).bwt = s.bwt := by unfold State.storeSlot; split <;> rfl
@[simp] theorem State.storeSlot_sseq (p : BitVec 1) (raw : List Byte) : (s.storeSlot p raw).sseq = s.sseq := by unfold State.storeSlot; split <;> rfl
@[simp] theorem State.storeSlot_rseq (p : BitVec 1) (raw : List Byte) : (s.storeSlot p raw).rseq = s.rseq := by unfold State.storeSlot; split <;> rfl
@[simp] theorem State.storeSlot_ifs (p : BitVec 1) (raw : List Byte) : (s.storeSlot p raw).ifs = s.ifs := by unfold State.storeSlot; split <;> rfl
@[simp] theorem State.storeSlot_ls0len (p : BitVec 1) (raw : List Byte) : (s.storeSlot p raw).ls0len = if p = 0#1 then BitVec.ofNat 16 raw.length else s.ls0len := by unfold State.storeSlot; split <;> rfl
@[simp] theorem State.storeSlot_ls1len (p : BitVec 1) (raw : List Byte) : (s.storeSlot p raw).ls1len = if p = 0#1 then s.ls1len else BitVec.ofNat 16 raw.length := by unfold State.storeSlot; split <;> rfl
@[simp] theorem State.storeSlot_xcnt (p : BitVec 1) (raw : List Byte) : (s.storeSlot p raw).xcnt = s.xcnt := by unfold State.storeSlot; split <;> rfl
@[simp] theorem State.storeSlot_tb (p : BitVec 1) (raw : List Byte) : (s.storeSlot p raw).tb = s.tb := by unfold State.storeSlot; split <;> rfl
@[simp] theorem State.storeSlot_db (p : BitVec 1) (raw : List Byte) : (s.storeSlot p raw).db = s.db := by unfold State.storeSlot; split <;> rfl
@[simp] theorem State.storeSlot_fb (p : BitVec 1) (raw : List Byte) : (s.storeSlot p raw).fb = s.fb := by unfold State.storeSlot; split <;> rfl
@[simp] theorem State.storeSlot_ls0 (p : BitVec 1) (raw : List Byte) : (s.storeSlot p raw).ls0 = if p = 0#1 then s.ls0.writeRange 0 raw else s.ls0 := by unfold State.storeSlot; split <;> rfl
@[simp] theorem State.storeSlot_ls1 (p : BitVec 1) (raw : List Byte) : (s.storeSlot p raw).ls1 = if p = 0#1 then s.ls1 else s.ls1.writeRange 0 raw := by unfold State.storeSlot; split <;> rfl
@[simp] theorem State.storeSlot_nodes (p : BitVec 1) (raw : List Byte) : (s.storeSlot p raw).nodes = s.nodes := by unfold State.storeSlot; split <;> rfl
@[simp] theorem State.storeSlot_work (p : BitVec 1) (raw : List Byte) : (s.storeSlot p raw).work = s.work := by unfold State.storeSlot; split <;> rfl
@[simp] theorem State.storeSlot_inputs (p : BitVec 1) (raw : List Byte) : (s.storeSlot p raw).inputs = s.inputs := by unfold State.storeSlot; split <;> rfl
@[simp] theorem State.storeSlot_hostData (p : BitVec 1) (raw : List Byte) : (s.storeSlot p raw).hostData = s.hostData := by unfold State.storeSlot; split <;> rfl

@[simp] theorem State.callExchange_cfg (j : Job) (r : Nat) (out : List Byte) : (s.callExchange j r out).cfg = s.cfg := rfl
@[simp] theorem State.callExchange_cmd (j : Job) (r : Nat) (out : List Byte) : (s.callExchange j r out).cmd = s.cmd := rfl
@[simp] theorem State.callExchange_status (j : Job) (r : Nat) (out : List Byte) : (s.callExchange j r out).status = statusBusy := rfl
@[simp] theorem State.callExchange_err (j : Job) (r : Nat) (out : List Byte) : (s.callExchange j r out).err = s.err := rfl
@[simp] theorem State.callExchange_subErr (j : Job) (r : Nat) (out : List Byte) : (s.callExchange j r out).subErr = s.subErr := rfl
@[simp] theorem State.callExchange_a0 (j : Job) (r : Nat) (out : List Byte) : (s.callExchange j r out).a0 = s.a0 := rfl
@[simp] theorem State.callExchange_a1 (j : Job) (r : Nat) (out : List Byte) : (s.callExchange j r out).a1 = s.a1 := rfl
@[simp] theorem State.callExchange_a2 (j : Job) (r : Nat) (out : List Byte) : (s.callExchange j r out).a2 = s.a2 := rfl
@[simp] theorem State.callExchange_a3 (j : Job) (r : Nat) (out : List Byte) : (s.callExchange j r out).a3 = s.a3 := rfl
@[simp] theorem State.callExchange_r0 (j : Job) (r : Nat) (out : List Byte) : (s.callExchange j r out).r0 = s.r0 := rfl
@[simp] theorem State.callExchange_r1 (j : Job) (r : Nat) (out : List Byte) : (s.callExchange j r out).r1 = s.r1 := rfl
@[simp] theorem State.callExchange_r2 (j : Job) (r : Nat) (out : List Byte) : (s.callExchange j r out).r2 = s.r2 := rfl
@[simp] theorem State.callExchange_r3 (j : Job) (r : Nat) (out : List Byte) : (s.callExchange j r out).r3 = s.r3 := rfl
@[simp] theorem State.callExchange_tlen (j : Job) (r : Nat) (out : List Byte) : (s.callExchange j r out).tlen = s.tlen := rfl
@[simp] theorem State.callExchange_ncnt (j : Job) (r : Nat) (out : List Byte) : (s.callExchange j r out).ncnt = s.ncnt := rfl
@[simp] theorem State.callExchange_vused (j : Job) (r : Nat) (out : List Byte) : (s.callExchange j r out).vused = s.vused := rfl
@[simp] theorem State.callExchange_dlen (j : Job) (r : Nat) (out : List Byte) : (s.callExchange j r out).dlen = s.dlen := rfl
@[simp] theorem State.callExchange_flen (j : Job) (r : Nat) (out : List Byte) : (s.callExchange j r out).flen = s.flen := rfl
@[simp] theorem State.callExchange_edcMode (j : Job) (r : Nat) (out : List Byte) : (s.callExchange j r out).edcMode = s.edcMode := rfl
@[simp] theorem State.callExchange_haddr (j : Job) (r : Nat) (out : List Byte) : (s.callExchange j r out).haddr = s.haddr := rfl
@[simp] theorem State.callExchange_daddr (j : Job) (r : Nat) (out : List Byte) : (s.callExchange j r out).daddr = s.daddr := rfl
@[simp] theorem State.callExchange_bwt (j : Job) (r : Nat) (out : List Byte) : (s.callExchange j r out).bwt = s.bwt := rfl
@[simp] theorem State.callExchange_sseq (j : Job) (r : Nat) (out : List Byte) : (s.callExchange j r out).sseq = s.sseq := rfl
@[simp] theorem State.callExchange_rseq (j : Job) (r : Nat) (out : List Byte) : (s.callExchange j r out).rseq = s.rseq := rfl
@[simp] theorem State.callExchange_ifs (j : Job) (r : Nat) (out : List Byte) : (s.callExchange j r out).ifs = s.ifs := rfl
@[simp] theorem State.callExchange_ls0len (j : Job) (r : Nat) (out : List Byte) : (s.callExchange j r out).ls0len = s.ls0len := rfl
@[simp] theorem State.callExchange_ls1len (j : Job) (r : Nat) (out : List Byte) : (s.callExchange j r out).ls1len = s.ls1len := rfl
@[simp] theorem State.callExchange_xcnt (j : Job) (r : Nat) (out : List Byte) : (s.callExchange j r out).xcnt = s.xcnt + 1 := rfl
@[simp] theorem State.callExchange_tb (j : Job) (r : Nat) (out : List Byte) : (s.callExchange j r out).tb = s.tb := rfl
@[simp] theorem State.callExchange_db (j : Job) (r : Nat) (out : List Byte) : (s.callExchange j r out).db = s.db := rfl
@[simp] theorem State.callExchange_fb (j : Job) (r : Nat) (out : List Byte) : (s.callExchange j r out).fb = s.fb := rfl
@[simp] theorem State.callExchange_ls0 (j : Job) (r : Nat) (out : List Byte) : (s.callExchange j r out).ls0 = s.ls0 := rfl
@[simp] theorem State.callExchange_ls1 (j : Job) (r : Nat) (out : List Byte) : (s.callExchange j r out).ls1 = s.ls1 := rfl
@[simp] theorem State.callExchange_nodes (j : Job) (r : Nat) (out : List Byte) : (s.callExchange j r out).nodes = s.nodes := rfl
@[simp] theorem State.callExchange_work (j : Job) (r : Nat) (out : List Byte) : (s.callExchange j r out).work = some ⟨j, r, out, []⟩ := rfl
@[simp] theorem State.callExchange_inputs (j : Job) (r : Nat) (out : List Byte) : (s.callExchange j r out).inputs = s.inputs := rfl
@[simp] theorem State.callExchange_hostData (j : Job) (r : Nat) (out : List Byte) : (s.callExchange j r out).hostData = s.hostData := rfl

@[simp] theorem State.abortWith_cfg (e : Err) (sub : BitVec 8) : (s.abortWith e sub).cfg = s.cfg := rfl
@[simp] theorem State.abortWith_cmd (e : Err) (sub : BitVec 8) : (s.abortWith e sub).cmd = s.cmd := rfl
@[simp] theorem State.abortWith_status (e : Err) (sub : BitVec 8) : (s.abortWith e sub).status = statusErrf := rfl
@[simp] theorem State.abortWith_err (e : Err) (sub : BitVec 8) : (s.abortWith e sub).err = e.code := rfl
@[simp] theorem State.abortWith_subErr (e : Err) (sub : BitVec 8) : (s.abortWith e sub).subErr = sub := rfl
@[simp] theorem State.abortWith_a0 (e : Err) (sub : BitVec 8) : (s.abortWith e sub).a0 = s.a0 := rfl
@[simp] theorem State.abortWith_a1 (e : Err) (sub : BitVec 8) : (s.abortWith e sub).a1 = s.a1 := rfl
@[simp] theorem State.abortWith_a2 (e : Err) (sub : BitVec 8) : (s.abortWith e sub).a2 = s.a2 := rfl
@[simp] theorem State.abortWith_a3 (e : Err) (sub : BitVec 8) : (s.abortWith e sub).a3 = s.a3 := rfl
@[simp] theorem State.abortWith_r0 (e : Err) (sub : BitVec 8) : (s.abortWith e sub).r0 = s.r0 := rfl
@[simp] theorem State.abortWith_r1 (e : Err) (sub : BitVec 8) : (s.abortWith e sub).r1 = s.r1 := rfl
@[simp] theorem State.abortWith_r2 (e : Err) (sub : BitVec 8) : (s.abortWith e sub).r2 = s.r2 := rfl
@[simp] theorem State.abortWith_r3 (e : Err) (sub : BitVec 8) : (s.abortWith e sub).r3 = s.r3 := rfl
@[simp] theorem State.abortWith_tlen (e : Err) (sub : BitVec 8) : (s.abortWith e sub).tlen = s.tlen := rfl
@[simp] theorem State.abortWith_ncnt (e : Err) (sub : BitVec 8) : (s.abortWith e sub).ncnt = s.ncnt := rfl
@[simp] theorem State.abortWith_vused (e : Err) (sub : BitVec 8) : (s.abortWith e sub).vused = s.vused := rfl
@[simp] theorem State.abortWith_dlen (e : Err) (sub : BitVec 8) : (s.abortWith e sub).dlen = s.dlen := rfl
@[simp] theorem State.abortWith_flen (e : Err) (sub : BitVec 8) : (s.abortWith e sub).flen = s.flen := rfl
@[simp] theorem State.abortWith_edcMode (e : Err) (sub : BitVec 8) : (s.abortWith e sub).edcMode = s.edcMode := rfl
@[simp] theorem State.abortWith_haddr (e : Err) (sub : BitVec 8) : (s.abortWith e sub).haddr = s.haddr := rfl
@[simp] theorem State.abortWith_daddr (e : Err) (sub : BitVec 8) : (s.abortWith e sub).daddr = s.daddr := rfl
@[simp] theorem State.abortWith_bwt (e : Err) (sub : BitVec 8) : (s.abortWith e sub).bwt = s.bwt := rfl
@[simp] theorem State.abortWith_sseq (e : Err) (sub : BitVec 8) : (s.abortWith e sub).sseq = s.sseq := rfl
@[simp] theorem State.abortWith_rseq (e : Err) (sub : BitVec 8) : (s.abortWith e sub).rseq = s.rseq := rfl
@[simp] theorem State.abortWith_ifs (e : Err) (sub : BitVec 8) : (s.abortWith e sub).ifs = s.ifs := rfl
@[simp] theorem State.abortWith_ls0len (e : Err) (sub : BitVec 8) : (s.abortWith e sub).ls0len = s.ls0len := rfl
@[simp] theorem State.abortWith_ls1len (e : Err) (sub : BitVec 8) : (s.abortWith e sub).ls1len = s.ls1len := rfl
@[simp] theorem State.abortWith_xcnt (e : Err) (sub : BitVec 8) : (s.abortWith e sub).xcnt = s.xcnt := rfl
@[simp] theorem State.abortWith_tb (e : Err) (sub : BitVec 8) : (s.abortWith e sub).tb = s.tb := rfl
@[simp] theorem State.abortWith_db (e : Err) (sub : BitVec 8) : (s.abortWith e sub).db = s.db := rfl
@[simp] theorem State.abortWith_fb (e : Err) (sub : BitVec 8) : (s.abortWith e sub).fb = s.fb := rfl
@[simp] theorem State.abortWith_ls0 (e : Err) (sub : BitVec 8) : (s.abortWith e sub).ls0 = s.ls0 := rfl
@[simp] theorem State.abortWith_ls1 (e : Err) (sub : BitVec 8) : (s.abortWith e sub).ls1 = s.ls1 := rfl
@[simp] theorem State.abortWith_nodes (e : Err) (sub : BitVec 8) : (s.abortWith e sub).nodes = s.nodes := rfl
@[simp] theorem State.abortWith_work (e : Err) (sub : BitVec 8) : (s.abortWith e sub).work = none := rfl
@[simp] theorem State.abortWith_inputs (e : Err) (sub : BitVec 8) : (s.abortWith e sub).inputs = s.inputs := rfl
@[simp] theorem State.abortWith_hostData (e : Err) (sub : BitVec 8) : (s.abortWith e sub).hostData = s.hostData := rfl

@[simp] theorem State.found_cfg (x : Option Nat) : (s.found x).cfg = s.cfg := rfl
@[simp] theorem State.found_cmd (x : Option Nat) : (s.found x).cmd = s.cmd := rfl
@[simp] theorem State.found_status (x : Option Nat) : (s.found x).status = s.status := rfl
@[simp] theorem State.found_err (x : Option Nat) : (s.found x).err = s.err := rfl
@[simp] theorem State.found_subErr (x : Option Nat) : (s.found x).subErr = s.subErr := rfl
@[simp] theorem State.found_a0 (x : Option Nat) : (s.found x).a0 = s.a0 := rfl
@[simp] theorem State.found_a1 (x : Option Nat) : (s.found x).a1 = s.a1 := rfl
@[simp] theorem State.found_a2 (x : Option Nat) : (s.found x).a2 = s.a2 := rfl
@[simp] theorem State.found_a3 (x : Option Nat) : (s.found x).a3 = s.a3 := rfl
@[simp] theorem State.found_r0 (x : Option Nat) : (s.found x).r0 = wordOfId x := rfl
@[simp] theorem State.found_r1 (x : Option Nat) : (s.found x).r1 = if x.isSome then 1#32 else 0#32 := rfl
@[simp] theorem State.found_r2 (x : Option Nat) : (s.found x).r2 = s.r2 := rfl
@[simp] theorem State.found_r3 (x : Option Nat) : (s.found x).r3 = s.r3 := rfl
@[simp] theorem State.found_tlen (x : Option Nat) : (s.found x).tlen = s.tlen := rfl
@[simp] theorem State.found_ncnt (x : Option Nat) : (s.found x).ncnt = s.ncnt := rfl
@[simp] theorem State.found_vused (x : Option Nat) : (s.found x).vused = s.vused := rfl
@[simp] theorem State.found_dlen (x : Option Nat) : (s.found x).dlen = s.dlen := rfl
@[simp] theorem State.found_flen (x : Option Nat) : (s.found x).flen = s.flen := rfl
@[simp] theorem State.found_edcMode (x : Option Nat) : (s.found x).edcMode = s.edcMode := rfl
@[simp] theorem State.found_haddr (x : Option Nat) : (s.found x).haddr = s.haddr := rfl
@[simp] theorem State.found_daddr (x : Option Nat) : (s.found x).daddr = s.daddr := rfl
@[simp] theorem State.found_bwt (x : Option Nat) : (s.found x).bwt = s.bwt := rfl
@[simp] theorem State.found_sseq (x : Option Nat) : (s.found x).sseq = s.sseq := rfl
@[simp] theorem State.found_rseq (x : Option Nat) : (s.found x).rseq = s.rseq := rfl
@[simp] theorem State.found_ifs (x : Option Nat) : (s.found x).ifs = s.ifs := rfl
@[simp] theorem State.found_ls0len (x : Option Nat) : (s.found x).ls0len = s.ls0len := rfl
@[simp] theorem State.found_ls1len (x : Option Nat) : (s.found x).ls1len = s.ls1len := rfl
@[simp] theorem State.found_xcnt (x : Option Nat) : (s.found x).xcnt = s.xcnt := rfl
@[simp] theorem State.found_tb (x : Option Nat) : (s.found x).tb = s.tb := rfl
@[simp] theorem State.found_db (x : Option Nat) : (s.found x).db = s.db := rfl
@[simp] theorem State.found_fb (x : Option Nat) : (s.found x).fb = s.fb := rfl
@[simp] theorem State.found_ls0 (x : Option Nat) : (s.found x).ls0 = s.ls0 := rfl
@[simp] theorem State.found_ls1 (x : Option Nat) : (s.found x).ls1 = s.ls1 := rfl
@[simp] theorem State.found_nodes (x : Option Nat) : (s.found x).nodes = s.nodes := rfl
@[simp] theorem State.found_work (x : Option Nat) : (s.found x).work = s.work := rfl
@[simp] theorem State.found_inputs (x : Option Nat) : (s.found x).inputs = s.inputs := rfl
@[simp] theorem State.found_hostData (x : Option Nat) : (s.found x).hostData = s.hostData := rfl

@[simp] theorem State.decoded_cfg (w : Word) (rest : List Byte) : (s.decoded w rest).cfg = s.cfg := rfl
@[simp] theorem State.decoded_cmd (w : Word) (rest : List Byte) : (s.decoded w rest).cmd = s.cmd := rfl
@[simp] theorem State.decoded_status (w : Word) (rest : List Byte) : (s.decoded w rest).status = s.status := rfl
@[simp] theorem State.decoded_err (w : Word) (rest : List Byte) : (s.decoded w rest).err = s.err := rfl
@[simp] theorem State.decoded_subErr (w : Word) (rest : List Byte) : (s.decoded w rest).subErr = s.subErr := rfl
@[simp] theorem State.decoded_a0 (w : Word) (rest : List Byte) : (s.decoded w rest).a0 = s.a0 := rfl
@[simp] theorem State.decoded_a1 (w : Word) (rest : List Byte) : (s.decoded w rest).a1 = s.a1 := rfl
@[simp] theorem State.decoded_a2 (w : Word) (rest : List Byte) : (s.decoded w rest).a2 = s.a2 := rfl
@[simp] theorem State.decoded_a3 (w : Word) (rest : List Byte) : (s.decoded w rest).a3 = s.a3 := rfl
@[simp] theorem State.decoded_r0 (w : Word) (rest : List Byte) : (s.decoded w rest).r0 = w := rfl
@[simp] theorem State.decoded_r1 (w : Word) (rest : List Byte) : (s.decoded w rest).r1 = s.tbOffset rest := rfl
@[simp] theorem State.decoded_r2 (w : Word) (rest : List Byte) : (s.decoded w rest).r2 = s.r2 := rfl
@[simp] theorem State.decoded_r3 (w : Word) (rest : List Byte) : (s.decoded w rest).r3 = s.r3 := rfl
@[simp] theorem State.decoded_tlen (w : Word) (rest : List Byte) : (s.decoded w rest).tlen = s.tlen := rfl
@[simp] theorem State.decoded_ncnt (w : Word) (rest : List Byte) : (s.decoded w rest).ncnt = s.ncnt := rfl
@[simp] theorem State.decoded_vused (w : Word) (rest : List Byte) : (s.decoded w rest).vused = s.vused := rfl
@[simp] theorem State.decoded_dlen (w : Word) (rest : List Byte) : (s.decoded w rest).dlen = s.dlen := rfl
@[simp] theorem State.decoded_flen (w : Word) (rest : List Byte) : (s.decoded w rest).flen = s.flen := rfl
@[simp] theorem State.decoded_edcMode (w : Word) (rest : List Byte) : (s.decoded w rest).edcMode = s.edcMode := rfl
@[simp] theorem State.decoded_haddr (w : Word) (rest : List Byte) : (s.decoded w rest).haddr = s.haddr := rfl
@[simp] theorem State.decoded_daddr (w : Word) (rest : List Byte) : (s.decoded w rest).daddr = s.daddr := rfl
@[simp] theorem State.decoded_bwt (w : Word) (rest : List Byte) : (s.decoded w rest).bwt = s.bwt := rfl
@[simp] theorem State.decoded_sseq (w : Word) (rest : List Byte) : (s.decoded w rest).sseq = s.sseq := rfl
@[simp] theorem State.decoded_rseq (w : Word) (rest : List Byte) : (s.decoded w rest).rseq = s.rseq := rfl
@[simp] theorem State.decoded_ifs (w : Word) (rest : List Byte) : (s.decoded w rest).ifs = s.ifs := rfl
@[simp] theorem State.decoded_ls0len (w : Word) (rest : List Byte) : (s.decoded w rest).ls0len = s.ls0len := rfl
@[simp] theorem State.decoded_ls1len (w : Word) (rest : List Byte) : (s.decoded w rest).ls1len = s.ls1len := rfl
@[simp] theorem State.decoded_xcnt (w : Word) (rest : List Byte) : (s.decoded w rest).xcnt = s.xcnt := rfl
@[simp] theorem State.decoded_tb (w : Word) (rest : List Byte) : (s.decoded w rest).tb = s.tb := rfl
@[simp] theorem State.decoded_db (w : Word) (rest : List Byte) : (s.decoded w rest).db = s.db := rfl
@[simp] theorem State.decoded_fb (w : Word) (rest : List Byte) : (s.decoded w rest).fb = s.fb := rfl
@[simp] theorem State.decoded_ls0 (w : Word) (rest : List Byte) : (s.decoded w rest).ls0 = s.ls0 := rfl
@[simp] theorem State.decoded_ls1 (w : Word) (rest : List Byte) : (s.decoded w rest).ls1 = s.ls1 := rfl
@[simp] theorem State.decoded_nodes (w : Word) (rest : List Byte) : (s.decoded w rest).nodes = s.nodes := rfl
@[simp] theorem State.decoded_work (w : Word) (rest : List Byte) : (s.decoded w rest).work = s.work := rfl
@[simp] theorem State.decoded_inputs (w : Word) (rest : List Byte) : (s.decoded w rest).inputs = s.inputs := rfl
@[simp] theorem State.decoded_hostData (w : Word) (rest : List Byte) : (s.decoded w rest).hostData = s.hostData := rfl

@[simp] theorem State.newRoot_cfg (n : Node) (k : Nat) : (s.newRoot n k).cfg = s.cfg := rfl
@[simp] theorem State.newRoot_cmd (n : Node) (k : Nat) : (s.newRoot n k).cmd = s.cmd := rfl
@[simp] theorem State.newRoot_status (n : Node) (k : Nat) : (s.newRoot n k).status = s.status := rfl
@[simp] theorem State.newRoot_err (n : Node) (k : Nat) : (s.newRoot n k).err = s.err := rfl
@[simp] theorem State.newRoot_subErr (n : Node) (k : Nat) : (s.newRoot n k).subErr = s.subErr := rfl
@[simp] theorem State.newRoot_a0 (n : Node) (k : Nat) : (s.newRoot n k).a0 = s.a0 := rfl
@[simp] theorem State.newRoot_a1 (n : Node) (k : Nat) : (s.newRoot n k).a1 = s.a1 := rfl
@[simp] theorem State.newRoot_a2 (n : Node) (k : Nat) : (s.newRoot n k).a2 = s.a2 := rfl
@[simp] theorem State.newRoot_a3 (n : Node) (k : Nat) : (s.newRoot n k).a3 = s.a3 := rfl
@[simp] theorem State.newRoot_r0 (n : Node) (k : Nat) : (s.newRoot n k).r0 = s.ncnt := rfl
@[simp] theorem State.newRoot_r1 (n : Node) (k : Nat) : (s.newRoot n k).r1 = s.r1 := rfl
@[simp] theorem State.newRoot_r2 (n : Node) (k : Nat) : (s.newRoot n k).r2 = s.r2 := rfl
@[simp] theorem State.newRoot_r3 (n : Node) (k : Nat) : (s.newRoot n k).r3 = s.r3 := rfl
@[simp] theorem State.newRoot_tlen (n : Node) (k : Nat) : (s.newRoot n k).tlen = s.tlen := rfl
@[simp] theorem State.newRoot_ncnt (n : Node) (k : Nat) : (s.newRoot n k).ncnt = s.ncnt + 1 := rfl
@[simp] theorem State.newRoot_vused (n : Node) (k : Nat) : (s.newRoot n k).vused = BitVec.ofNat 32 (s.vused.toNat + k) := rfl
@[simp] theorem State.newRoot_dlen (n : Node) (k : Nat) : (s.newRoot n k).dlen = s.dlen := rfl
@[simp] theorem State.newRoot_flen (n : Node) (k : Nat) : (s.newRoot n k).flen = s.flen := rfl
@[simp] theorem State.newRoot_edcMode (n : Node) (k : Nat) : (s.newRoot n k).edcMode = s.edcMode := rfl
@[simp] theorem State.newRoot_haddr (n : Node) (k : Nat) : (s.newRoot n k).haddr = s.haddr := rfl
@[simp] theorem State.newRoot_daddr (n : Node) (k : Nat) : (s.newRoot n k).daddr = s.daddr := rfl
@[simp] theorem State.newRoot_bwt (n : Node) (k : Nat) : (s.newRoot n k).bwt = s.bwt := rfl
@[simp] theorem State.newRoot_sseq (n : Node) (k : Nat) : (s.newRoot n k).sseq = s.sseq := rfl
@[simp] theorem State.newRoot_rseq (n : Node) (k : Nat) : (s.newRoot n k).rseq = s.rseq := rfl
@[simp] theorem State.newRoot_ifs (n : Node) (k : Nat) : (s.newRoot n k).ifs = s.ifs := rfl
@[simp] theorem State.newRoot_ls0len (n : Node) (k : Nat) : (s.newRoot n k).ls0len = s.ls0len := rfl
@[simp] theorem State.newRoot_ls1len (n : Node) (k : Nat) : (s.newRoot n k).ls1len = s.ls1len := rfl
@[simp] theorem State.newRoot_xcnt (n : Node) (k : Nat) : (s.newRoot n k).xcnt = s.xcnt := rfl
@[simp] theorem State.newRoot_tb (n : Node) (k : Nat) : (s.newRoot n k).tb = s.tb := rfl
@[simp] theorem State.newRoot_db (n : Node) (k : Nat) : (s.newRoot n k).db = s.db := rfl
@[simp] theorem State.newRoot_fb (n : Node) (k : Nat) : (s.newRoot n k).fb = s.fb := rfl
@[simp] theorem State.newRoot_ls0 (n : Node) (k : Nat) : (s.newRoot n k).ls0 = s.ls0 := rfl
@[simp] theorem State.newRoot_ls1 (n : Node) (k : Nat) : (s.newRoot n k).ls1 = s.ls1 := rfl
@[simp] theorem State.newRoot_nodes (n : Node) (k : Nat) : (s.newRoot n k).nodes = s.nodes ++ [n] := rfl
@[simp] theorem State.newRoot_work (n : Node) (k : Nat) : (s.newRoot n k).work = s.work := rfl
@[simp] theorem State.newRoot_inputs (n : Node) (k : Nat) : (s.newRoot n k).inputs = s.inputs := rfl
@[simp] theorem State.newRoot_hostData (n : Node) (k : Nat) : (s.newRoot n k).hostData = s.hostData := rfl

@[simp] theorem State.built_cfg (raw : List Byte) : (s.built raw).cfg = s.cfg := rfl
@[simp] theorem State.built_cmd (raw : List Byte) : (s.built raw).cmd = s.cmd := rfl
@[simp] theorem State.built_status (raw : List Byte) : (s.built raw).status = s.status := rfl
@[simp] theorem State.built_err (raw : List Byte) : (s.built raw).err = s.err := rfl
@[simp] theorem State.built_subErr (raw : List Byte) : (s.built raw).subErr = s.subErr := rfl
@[simp] theorem State.built_a0 (raw : List Byte) : (s.built raw).a0 = s.a0 := rfl
@[simp] theorem State.built_a1 (raw : List Byte) : (s.built raw).a1 = s.a1 := rfl
@[simp] theorem State.built_a2 (raw : List Byte) : (s.built raw).a2 = s.a2 := rfl
@[simp] theorem State.built_a3 (raw : List Byte) : (s.built raw).a3 = s.a3 := rfl
@[simp] theorem State.built_r0 (raw : List Byte) : (s.built raw).r0 = (frameFields raw).header := rfl
@[simp] theorem State.built_r1 (raw : List Byte) : (s.built raw).r1 = s.r1 := rfl
@[simp] theorem State.built_r2 (raw : List Byte) : (s.built raw).r2 = s.r2 := rfl
@[simp] theorem State.built_r3 (raw : List Byte) : (s.built raw).r3 = s.r3 := rfl
@[simp] theorem State.built_tlen (raw : List Byte) : (s.built raw).tlen = s.tlen := rfl
@[simp] theorem State.built_ncnt (raw : List Byte) : (s.built raw).ncnt = s.ncnt := rfl
@[simp] theorem State.built_vused (raw : List Byte) : (s.built raw).vused = s.vused := rfl
@[simp] theorem State.built_dlen (raw : List Byte) : (s.built raw).dlen = s.dlen := rfl
@[simp] theorem State.built_flen (raw : List Byte) : (s.built raw).flen = BitVec.ofNat 16 raw.length := rfl
@[simp] theorem State.built_edcMode (raw : List Byte) : (s.built raw).edcMode = s.edcMode := rfl
@[simp] theorem State.built_haddr (raw : List Byte) : (s.built raw).haddr = s.haddr := rfl
@[simp] theorem State.built_daddr (raw : List Byte) : (s.built raw).daddr = s.daddr := rfl
@[simp] theorem State.built_bwt (raw : List Byte) : (s.built raw).bwt = s.bwt := rfl
@[simp] theorem State.built_sseq (raw : List Byte) : (s.built raw).sseq = s.sseq := rfl
@[simp] theorem State.built_rseq (raw : List Byte) : (s.built raw).rseq = s.rseq := rfl
@[simp] theorem State.built_ifs (raw : List Byte) : (s.built raw).ifs = s.ifs := rfl
@[simp] theorem State.built_ls0len (raw : List Byte) : (s.built raw).ls0len = s.ls0len := rfl
@[simp] theorem State.built_ls1len (raw : List Byte) : (s.built raw).ls1len = s.ls1len := rfl
@[simp] theorem State.built_xcnt (raw : List Byte) : (s.built raw).xcnt = s.xcnt := rfl
@[simp] theorem State.built_tb (raw : List Byte) : (s.built raw).tb = s.tb := rfl
@[simp] theorem State.built_db (raw : List Byte) : (s.built raw).db = s.db := rfl
@[simp] theorem State.built_fb (raw : List Byte) : (s.built raw).fb = s.fb.writeRange 0 raw := rfl
@[simp] theorem State.built_ls0 (raw : List Byte) : (s.built raw).ls0 = s.ls0 := rfl
@[simp] theorem State.built_ls1 (raw : List Byte) : (s.built raw).ls1 = s.ls1 := rfl
@[simp] theorem State.built_nodes (raw : List Byte) : (s.built raw).nodes = s.nodes := rfl
@[simp] theorem State.built_work (raw : List Byte) : (s.built raw).work = s.work := rfl
@[simp] theorem State.built_inputs (raw : List Byte) : (s.built raw).inputs = s.inputs := rfl
@[simp] theorem State.built_hostData (raw : List Byte) : (s.built raw).hostData = s.hostData := rfl

end Sys2Proof.Machine
end

