-- ==== Sys2Proof/Laws/Ops.lean ====
section
/-! SUPPORT. What the shared operations on registers, buffers, slots and nodes can do. -/

namespace Sys2Proof.Machine

@[simp] theorem State.complete_ok (s t : State) : s.complete (.ok t) = t.finish := rfl

@[simp] theorem State.complete_error (s : State) (e : Err) : s.complete (.error e) = s.raise e := rfl

/-- A transactional command ends in one of two ways. -/
theorem State.complete_cases (s : State) (r : Except Err State) :
    (∃ t, r = .ok t ∧ s.complete r = t.finish) ∨ (∃ e, r = .error e ∧ s.complete r = s.raise e) := by
  cases r with
  | ok t => exact .inl ⟨t, rfl, rfl⟩
  | error e => exact .inr ⟨e, rfl, rfl⟩

/-- The three states of a command, read off STATUS. -/
theorem statusBusy_ne_done : statusBusy ≠ statusDone := by decide
theorem statusBusy_ne_errf : statusBusy ≠ statusErrf := by decide
theorem statusDone_ne_errf : statusDone ≠ statusErrf := by decide

@[simp] theorem State.busy_start (s : State) (c : BitVec 8) : (s.start c).busy = true := by
  show statusBusy.getLsbD 0 = true; decide
@[simp] theorem State.busy_finish (s : State) : s.finish.busy = false := by
  show statusDone.getLsbD 0 = false; decide
@[simp] theorem State.busy_raiseSub (s : State) (e : Err) (c : BitVec 8) : (s.raiseSub e c).busy = false := by
  show statusErrf.getLsbD 0 = false; decide
@[simp] theorem State.busy_raise (s : State) (e : Err) : (s.raise e).busy = false :=
  State.busy_raiseSub s e 0#8

/-- No error has the code 0, which stands for none (60_exceptions R231). -/
theorem Err.code_ne_zero (e : Err) : e.code ≠ 0#8 := by cases e <;> decide

/-- Two errors have two codes. -/
theorem Err.code_injective {e f : Err} (h : e.code = f.code) : e = f := by
  revert h; cases e <;> cases f <;> decide

/-- What `emit` can do (40_tag_len_unit R120). -/
theorem State.emit_ok {s t : State} {bs : List Byte} :
    s.emit bs = .ok t ↔ s.tlen.toNat + bs.length ≤ s.cfg.tbCap ∧ t = { s with
      tb := s.tb.writeRange s.tlen.toNat bs
      tlen := BitVec.ofNat 32 (s.tlen.toNat + bs.length)
      r0 := BitVec.ofNat 32 bs.length } := by
  unfold State.emit
  split
  · simp; omega
  · simp only [Except.ok.injEq, eq_comm (a := t)]
    constructor
    · intro h; exact ⟨by omega, h⟩
    · exact fun h => h.2

theorem State.emit_error {s : State} {bs : List Byte} {e : Err} :
    s.emit bs = .error e ↔ s.cfg.tbCap < s.tlen.toNat + bs.length ∧ e = .bufferOverflow := by
  unfold State.emit
  split
  · simp only [Except.error.injEq, eq_comm (a := e)]; constructor
    · intro h; exact ⟨by omega, h⟩
    · exact fun h => h.2
  · simp; omega

/-- A frame stored in a slot is what the slot then holds. -/
theorem State.slot_storeSlot {s : State} (h0 : s.ls0.wf) (h1 : s.ls1.wf) (p : BitVec 1) {raw : List Byte}
    (hr : raw.length < 2 ^ 16) : (s.storeSlot p raw).slot p = raw := by
  have hl : (BitVec.ofNat 16 raw.length).toNat = raw.length := by
    rw [BitVec.toNat_ofNat]; exact Nat.mod_eq_of_lt hr
  unfold State.slot
  split
  · rename_i h
    simp only [State.storeSlot_ls0, State.storeSlot_ls0len, h, if_true, hl]
    exact Memory.readRange_writeRange h0 0 raw
  · rename_i h
    simp only [State.storeSlot_ls1, State.storeSlot_ls1len, h, if_false, hl]
    exact Memory.readRange_writeRange h1 0 raw

/-- The other slot keeps what it holds. -/
theorem State.slot_storeSlot_other (s : State) {p q : BitVec 1} (h : q ≠ p) (raw : List Byte) :
    (s.storeSlot p raw).slot q = s.slot q := by
  have hb : ∀ x : BitVec 1, x = 0#1 ∨ x = 1#1 := by decide
  have hp := hb p
  have hq := hb q
  rcases hp with rfl | rfl <;> rcases hq with rfl | rfl <;> simp_all [State.slot]

@[simp] theorem State.slotLen_storeSlot (s : State) (p : BitVec 1) (raw : List Byte) :
    (s.storeSlot p raw).slotLen p = BitVec.ofNat 16 raw.length := by
  unfold State.slotLen
  split <;> simp_all

theorem State.slotLen_storeSlot_other (s : State) {p q : BitVec 1} (h : q ≠ p) (raw : List Byte) :
    (s.storeSlot p raw).slotLen q = s.slotLen q := by
  have hb : ∀ x : BitVec 1, x = 0#1 ∨ x = 1#1 := by decide
  have hp := hb p
  have hq := hb q
  rcases hp with rfl | rfl <;> rcases hq with rfl | rfl <;> simp_all [State.slotLen]

@[simp] theorem State.length_slot (s : State) (p : BitVec 1) : (s.slot p).length = (s.slotLen p).toNat := by
  unfold State.slot State.slotLen
  split <;> simp

@[simp] theorem State.length_tbValid (s : State) : s.tbValid.length = s.tlen.toNat := by simp [State.tbValid]
@[simp] theorem State.length_tbFrom (s : State) (o : Nat) : (s.tbFrom o).length = s.tlen.toNat - o := by
  simp [State.tbFrom]
@[simp] theorem State.length_dbData (s : State) : s.dbData.length = s.dlen.toNat := by simp [State.dbData]
@[simp] theorem State.length_fbFrame (s : State) : s.fbFrame.length = s.flen.toNat := by simp [State.fbFrame]

/-- A register names a node exactly when it is below NCNT and the arena holds it. -/
theorem State.node_ok {s : State} {w : Word} {n : Node} :
    s.node w = .ok n ↔ w.toNat < s.ncnt.toNat ∧ s.nodes[w.toNat]? = some n := by
  unfold State.node
  split
  · split <;> simp_all
  · simp_all

/-- A register that names no node is BadNode, and nothing else. -/
theorem State.node_error {s : State} {w : Word} {e : Err} (h : s.node w = .error e) : e = .badNode := by
  unfold State.node at h
  split at h
  · split at h <;> simp_all
  · simp_all

/-- In an arena of NCNT nodes every id below NCNT names one. -/
theorem State.node_of_lt {s : State} (hn : s.ncnt.toNat = s.nodes.length) {w : Word}
    (h : w.toNat < s.ncnt.toNat) : ∃ n, s.node w = .ok n := by
  obtain ⟨n, hget⟩ : ∃ n, s.nodes[w.toNat]? = some n :=
    ⟨_, List.getElem?_eq_getElem (hn ▸ h)⟩
  exact ⟨n, State.node_ok.2 ⟨h, hget⟩⟩

/-- What `commit` can do (41_tlv_unit R142). -/
theorem State.commit_ok {s t : State} {tr : Tree} {x : Nat} :
    s.commit tr = .ok (t, x) ↔
      s.ncnt.toNat + tr.count ≤ s.cfg.nodeCap ∧ s.vused.toNat + tr.valueBytes ≤ s.cfg.valCap ∧
      x = s.ncnt.toNat ∧ t = { s with
        nodes := s.nodes ++ tr.records s.ncnt.toNat none
        ncnt := BitVec.ofNat 32 (s.ncnt.toNat + tr.count)
        vused := BitVec.ofNat 32 (s.vused.toNat + tr.valueBytes) } := by
  unfold State.commit
  split
  · simp; omega
  · simp only [Except.ok.injEq, Prod.mk.injEq, eq_comm (a := t), eq_comm (a := x)]
    constructor
    · intro h; exact ⟨by omega, by omega, h.2, h.1⟩
    · intro h; exact ⟨h.2.2.2, h.2.2.1⟩

theorem State.commit_error {s : State} {tr : Tree} {e : Err} (h : s.commit tr = .error e) : e = .arenaFull := by
  unfold State.commit at h
  split at h <;> simp_all

end Sys2Proof.Machine
end

