-- ==== Sys2Proof/Laws/Line.lean ====
section
/-! SUPPORT. The protocol engine: what its shared operations can do, said once each. -/

namespace Sys2Proof.Machine

/-- The attempts of T1OPEN that are left end in one of two ways (43_t1_protocol R200, R201). -/
theorem State.tryOpen_cases (s : State) (left : Nat) (last : BitVec 8) :
    (∃ sub, s.tryOpen left last = s.abortWith .initFailed sub ∧
        ((left = 0 ∧ sub = last) ∨ (s.cfg.retryBudget = 0 ∧ 0 < left ∧ sub = Err.tooManyRetries.code))) ∨
      (∃ k, left = k + 1 ∧ s.cfg.retryBudget ≠ 0 ∧ s.tryOpen left last =
        s.callExchange (.opening (s.cfg.openAttempts - k) .resynch) s.cfg.retryBudget s.resynchFrame) := by
  induction left generalizing last with
  | zero => exact .inl ⟨last, rfl, .inl ⟨rfl, rfl⟩⟩
  | succ k ih =>
    unfold State.tryOpen
    split
    · rename_i h0
      rcases ih Err.tooManyRetries.code with ⟨sub, he, hs⟩ | ⟨j, -, hb, -⟩
      · refine .inl ⟨sub, he, .inr ⟨h0, by omega, ?_⟩⟩
        rcases hs with ⟨-, h⟩ | ⟨-, -, h⟩ <;> exact h
      · exact absurd h0 hb
    · exact .inr ⟨k, rfl, ‹_›, rfl⟩

/-- With a retry budget, an attempt that is left begins (43_t1_protocol R200). -/
theorem State.tryOpen_succ {s : State} (h : s.cfg.retryBudget ≠ 0) (k : Nat) (last : BitVec 8) :
    s.tryOpen (k + 1) last =
      s.callExchange (.opening (s.cfg.openAttempts - k) .resynch) s.cfg.retryBudget s.resynchFrame := by
  unfold State.tryOpen
  rw [if_neg h]

@[simp] theorem State.failJob_xmit (s : State) (e : Err) : s.failJob .xmit e = s.abortWith e 0#8 := rfl

@[simp] theorem State.failJob_opening (s : State) (a : Nat) (ph : Phase) (e : Err) :
    s.failJob (.opening a ph) e = s.tryOpen (s.cfg.openAttempts - a) e.code := rfl

theorem State.transmit_zero (s : State) (j : Job) (out : List Byte) :
    s.transmit j 0 out = s.failJob j .tooManyRetries := rfl

theorem State.transmit_pos (s : State) (j : Job) {r : Nat} (h : r ≠ 0) (out : List Byte) :
    s.transmit j r out = s.callExchange j r out := by
  unfold State.transmit
  rw [if_neg h]

/-- What an answer can come to (43_t1_protocol R191, R192). -/
theorem State.receive_cases (s : State) (a : Answer) :
    (s.work = none ∧ s.receive a = .settled s) ∨
    ∃ w, s.work = some w ∧
      ((a = .fail ∧ s.receive a = .settled (s.failJob w.job .transportError)) ∨
       ∃ g, a = .ok g ∧
        ((t1Parse 0#1 (g.take fbCap) = .error .lengthMismatch ∧
            s.receive a = .settled (({ s with work := some { w with rx := g.take fbCap } }).failJob w.job
              .lengthMismatch)) ∨
         (t1Parse 0#1 (g.take fbCap) = .error .edcError ∧
            s.receive a = .settled (({ s with work := some { w with rx := g.take fbCap } }).armEdc
              { w with rx := g.take fbCap })) ∨
         ∃ b, t1Parse 0#1 (g.take fbCap) = .ok b ∧
          ((∃ e, decodePcb s.cfg.scode b.pcb = .error e ∧
              s.receive a = .settled (({ s with work := some { w with rx := g.take fbCap } }).armUnknown
                { w with rx := g.take fbCap })) ∨
           (∃ i, decodePcb s.cfg.scode b.pcb = .ok i ∧
              s.receive a = .run i { s with work := some { w with rx := g.take fbCap } })))) := by
  cases hw : s.work with
  | none => exact .inl ⟨rfl, by simp [State.receive, hw]⟩
  | some w =>
    refine .inr ⟨w, rfl, ?_⟩
    cases a with
    | fail => exact .inl ⟨rfl, by simp [State.receive, hw]⟩
    | ok g =>
      refine .inr ⟨g, rfl, ?_⟩
      cases hp : t1Parse 0#1 (g.take fbCap) with
      | error e =>
        rcases t1Parse_error hp with rfl | rfl
        · exact .inl ⟨rfl, by simp [State.receive, hw, hp]⟩
        · exact .inr (.inl ⟨rfl, by simp [State.receive, hw, hp]⟩)
      | ok b =>
        refine .inr (.inr ⟨b, rfl, ?_⟩)
        cases hd : decodePcb s.cfg.scode b.pcb with
        | error e => exact .inl ⟨e, rfl, by simp [State.receive, hw, hp, hd]⟩
        | ok i => exact .inr ⟨i, rfl, by simp [State.receive, hw, hp, hd]⟩

@[simp] theorem State.serve_nil (s : State) : s.serve [] = s := by simp [State.serve]

/-- An engine that waits takes the answer that stands next. -/
theorem State.serve_waiting {s : State} {w : Work} (h : s.work = some w) (a : Answer) (rest : List Input) :
    s.serve (.line a :: rest) = State.serve rest (({ s with inputs := rest }).answer a) := by
  rw [State.serve]; simp [h]

/-- An engine that waits for nothing takes no answer. -/
theorem State.serve_idle {s : State} (h : s.work = none) (l : List Input) : s.serve l = s := by
  match l with
  | [] => simp [State.serve]
  | .line a :: rest => rw [State.serve]; simp [h]
  | .host a :: rest => simp [State.serve]
  | .hardReset :: rest => simp [State.serve]

@[simp] theorem State.serve_host (s : State) (a : Access) (rest : List Input) : s.serve (.host a :: rest) = s := by
  simp [State.serve]

@[simp] theorem State.serve_hardReset (s : State) (rest : List Input) : s.serve (.hardReset :: rest) = s := by
  simp [State.serve]

/-- What holds before `serve` and is kept by every answer a waiting engine takes holds after it. -/
theorem State.serve_keeps {P : State → Prop}
    (hP : ∀ (s : State) (w : Work) (a : Answer) (rest : List Input), s.work = some w → P s →
      P (({ s with inputs := rest }).answer a)) :
    ∀ (l : List Input) (s : State), P s → P (s.serve l)
  | [], s, h => by simpa using h
  | .host _ :: _, s, h => by simpa using h
  | .hardReset :: _, s, h => by simpa using h
  | .line a :: rest, s, h => by
    cases hw : s.work with
    | none => rw [State.serve_idle hw]; exact h
    | some w => rw [State.serve_waiting hw]; exact State.serve_keeps hP rest _ (hP s w a rest hw h)

@[simp] theorem State.whileWaiting_some {s : State} {w : Work} (h : s.work = some w) (arm : Work → State) :
    s.whileWaiting arm = arm w := by simp [State.whileWaiting, h]

@[simp] theorem State.whileWaiting_none {s : State} (h : s.work = none) (arm : Work → State) :
    s.whileWaiting arm = s := by simp [State.whileWaiting, h]

/-- Without an outstanding exchange no octet changes anything (20_memory R72; log entry 7). -/
theorem State.reply_idle {s : State} (h : s.work = none) (i : Instr) : s.reply i = s := by
  cases i <;> simp [State.reply, State.whileWaiting, h]

/-- What the end of T1XMIT changes, and what it leaves alone (43_t1_protocol R202). -/
theorem State.endXmit_eq (s : State) (b : Block) : s.endXmit b = { s with
    sseq := if s.cfg.sendSeqAdvance then s.sseq ^^^ 1#1 else s.sseq
    db := s.db.writeRange 0 b.data
    dlen := BitVec.ofNat 16 b.data.length
    r0 := b.header
    r1 := addressWord (nadSrc b.nad) (nadDst b.nad) 0#2
    work := none
    status := statusDone } := by
  unfold State.endXmit
  split <;> simp_all [State.storeData, State.finish]

/-- The retransmission of a level with at least two retries is a new exchange (43_t1_protocol R192). -/
theorem State.retransmit_pos (s : State) (w : Work) (h : 2 ≤ w.retries) (out : List Byte) :
    s.retransmit w out = s.callExchange w.job (w.retries - 1) out :=
  s.transmit_pos w.job (by omega) out

/-- The retransmission of the last level is TooManyRetries (43_t1_protocol R192). -/
theorem State.retransmit_last (s : State) (w : Work) (h : w.retries ≤ 1) (out : List Byte) :
    s.retransmit w out = s.failJob w.job .tooManyRetries := by
  unfold State.retransmit
  rw [show w.retries - 1 = 0 by omega]
  rfl

end Sys2Proof.Machine
end

