-- ==== Sys2Proof/Laws/Step.lean ====
section
/-! SUPPORT. One step, and how its event reaches the engine. -/

namespace Sys2Proof.Machine

/-- Without an event nothing happens (log entry 8). -/
theorem step_nil {s : State} (h : s.inputs = []) : step s = .next s := by simp [step, h]

/-- The next event reaches the engine. -/
theorem step_cons {s : State} {e : Input} {rest : List Input} (h : s.inputs = e :: rest) :
    step s = (({ s with inputs := rest }).arrive e).outcome := by simp [step, h]

/-- What a step can be: nothing, a settled event, or one instruction. -/
theorem step_cases (s : State) :
    (s.inputs = [] ∧ step s = .next s) ∨
      ∃ e rest, s.inputs = e :: rest ∧
        ((∃ t, ({ s with inputs := rest }).arrive e = .settled t ∧ step s = .next t) ∨
          ∃ i t, ({ s with inputs := rest }).arrive e = .run i t ∧ step s = exec i t) := by
  cases h : s.inputs with
  | nil => exact .inl ⟨rfl, step_nil h⟩
  | cons e rest =>
    refine .inr ⟨e, rest, rfl, ?_⟩
    rw [step_cons h]
    cases ha : ({ s with inputs := rest }).arrive e with
    | settled t => exact .inl ⟨t, rfl, rfl⟩
    | run i t => exact .inr ⟨i, t, rfl, rfl⟩

/-- A received octet decodes to an instruction of its own format. -/
theorem format_of_decodePcb {sc : SCode} {p : Byte} {i : Instr} (h : decodePcb sc p = .ok i) : i.format = .pcb := by
  unfold decodePcb decodeSCode at h
  repeat' split at h
  all_goals first | (cases h; rfl) | cases h

/-- A PCB octet runs its arm. -/
theorem exec_of_pcb {i : Instr} (h : i.format = .pcb) (s : State) : exec i s = .next (s.reply i) := by
  cases i <;> first | rfl | exact absurd h (by decide)

/-- A step that takes an answer handles it to the end of its arm, whether a command waits for it or not. -/
theorem step_line {s : State} {a : Answer} {rest : List Input} (h : s.inputs = .line a :: rest) :
    step s = .next (({ s with inputs := rest }).answer a) := by
  rw [step_cons h]
  show (State.receive _ a).outcome = _
  unfold State.answer
  cases hr : ({ s with inputs := rest } : State).receive a with
  | settled t => rfl
  | run i t =>
    rcases ({ s with inputs := rest } : State).receive_cases a with ⟨-, h'⟩ | ⟨w, -, hc⟩
    · rw [hr] at h'; cases h'
    · rcases hc with ⟨-, h'⟩ | ⟨g, -, ⟨-, h'⟩ | ⟨-, h'⟩ | ⟨b, -, ⟨e, -, h'⟩ | ⟨j, hd, h'⟩⟩⟩ <;> rw [hr] at h' <;> cases h'
      exact exec_of_pcb (format_of_decodePcb hd) _

/-- A write of CMD to an idle engine starts a command or is IllegalCommand (44_system R220, R224). -/
theorem State.writeCmd_cases (s : State) (v : Word) :
    (∃ i, decodeCommand (v.setWidth 8) = .ok i ∧ s.writeCmd v = .run i (s.start (v.setWidth 8))) ∨
      (∃ e, decodeCommand (v.setWidth 8) = .error e ∧
        s.writeCmd v = .settled ((s.start (v.setWidth 8)).raise .illegalCommand)) := by
  cases h : decodeCommand (v.setWidth 8) with
  | ok i => exact .inl ⟨i, rfl, by simp [State.writeCmd, h]⟩
  | error e => exact .inr ⟨e, rfl, by simp [State.writeCmd, h]⟩

/-- A HOST access runs an instruction only by a write of CMD while BUSY is 0 (20_memory R65, 70_reset R266). -/
theorem State.hostAccess_run {s t : State} {a : Access} {i : Instr} (h : s.hostAccess a = .run i t) :
    ∃ v, a = .writeReg 0 v ∧ s.busy = false ∧ decodeCommand (v.setWidth 8) = .ok i ∧ t = s.start (v.setWidth 8) := by
  cases a with
  | writeReg n v =>
    simp only [State.hostAccess] at h
    split at h
    · simp at h
    · split at h
      · rename_i hb hn
        rcases s.writeCmd_cases v with ⟨j, hj, hw⟩ | ⟨e, -, hw⟩
        · rw [hw] at h
          simp only [Arrival.run.injEq] at h
          exact ⟨v, by rw [hn], by simpa using hb, h.1 ▸ hj, h.2.symm⟩
        · rw [hw] at h; simp at h
      · simp at h
  | writeByte sp off b => simp only [State.hostAccess] at h; split at h <;> simp at h
  | readReg n => simp [State.hostAccess] at h
  | readByte sp off => simp [State.hostAccess] at h

/-- An instruction of a table word placed as the next event is what the next step takes (log entry 10). -/
theorem State.withFetchWord_cmd {s : State} {w : Nat} {i : Instr} (h : decodeCommand (tableOctet w) = .ok i)
    (hf : i.format = .cmd) : (s.withFetchWord 8 w).inputs =
      .host (.writeReg 0 ((tableOctet w).setWidth 32)) :: s.inputs := by
  simp only [State.withFetchWord, State.placeTableOctet, decodeTableOctet, h, Option.getD_some, State.placeOctet, hf]
  rw [if_neg (by omega)]
  simp only
  split <;> rfl

end Sys2Proof.Machine
end

