-- ==== Sys2Proof/Laws/Ends.lean ====
section
/-! SUPPORT. Every answer that a waiting command takes leaves it fewer exchange calls (70_reset_and_hazards R271,
43_t1_protocol R205). -/

namespace Sys2Proof.Machine

/-- Going from `s` to `t`, the command has ended, or it waits with at most `k` exchange calls left; CMD, the parameters
and the events are as before. -/
structure EndsWithin (k : Nat) (s t : State) : Prop where
  ends : t.Ended ∨ ∃ w, t.work = some w ∧ t.status = statusBusy ∧ w.exchangesLeft s.cfg ≤ k
  cfg : t.cfg = s.cfg
  cmd : t.cmd = s.cmd
  inputs : t.inputs = s.inputs

/-- More calls may be left, and the state before may be changed in other fields. -/
theorem EndsWithin.weaken {k k' : Nat} {s s' t : State} (h : EndsWithin k s t) (hk : k ≤ k') (hc : s.cfg = s'.cfg)
    (hm : s.cmd = s'.cmd) (hi : s.inputs = s'.inputs) : EndsWithin k' s' t where
  ends := h.ends.imp_right fun ⟨w, hw, hs, hl⟩ => ⟨w, hw, hs, hc ▸ hl.trans hk⟩
  cfg := h.cfg.trans hc
  cmd := h.cmd.trans hm
  inputs := h.inputs.trans hi

theorem State.abortWith_ends (k : Nat) (s : State) (e : Err) (sub : BitVec 8) :
    EndsWithin k s (s.abortWith e sub) := ⟨.inl ⟨rfl, .inr rfl⟩, rfl, rfl, rfl⟩

theorem State.callExchange_ends (s : State) (job : Job) (r : Nat) (out : List Byte) :
    EndsWithin (max 1 r + job.exchangesAfter s.cfg) s (s.callExchange job r out) :=
  ⟨.inr ⟨_, rfl, rfl, Nat.le_refl _⟩, rfl, rfl, rfl⟩

/-- `left` attempts of T1OPEN make at most `left * 2 * RETRY_BUDGET` exchange calls (43_t1_protocol R205). -/
theorem State.tryOpen_ends (s : State) (left : Nat) (last : BitVec 8) :
    EndsWithin (left * (2 * s.cfg.retryBudget)) s (s.tryOpen left last) := by
  rcases s.tryOpen_cases left last with ⟨sub, h, -⟩ | ⟨k, rfl, hb, h⟩
  · rw [h]; exact s.abortWith_ends _ _ _
  · rw [h]
    refine (s.callExchange_ends _ _ _).weaken ?_ rfl rfl rfl
    have h1 : s.cfg.openAttempts - (s.cfg.openAttempts - k) ≤ k := by omega
    have h2 := Nat.mul_le_mul_right (2 * s.cfg.retryBudget) h1
    have h3 : (k + 1) * (2 * s.cfg.retryBudget) = k * (2 * s.cfg.retryBudget) + 2 * s.cfg.retryBudget :=
      Nat.succ_mul _ _
    simp only [Job.exchangesAfter]
    omega

theorem State.failJob_ends (s : State) (job : Job) (e : Err) :
    EndsWithin (job.exchangesAfter s.cfg) s (s.failJob job e) := by
  cases job with
  | xmit => exact s.abortWith_ends _ _ _
  | opening a ph =>
    refine (s.tryOpen_ends (s.cfg.openAttempts - a) e.code).weaken ?_ rfl rfl rfl
    cases ph <;> simp [Job.exchangesAfter]

theorem State.transmit_ends (s : State) (job : Job) (r : Nat) (out : List Byte) :
    EndsWithin (r + job.exchangesAfter s.cfg) s (s.transmit job r out) := by
  by_cases hr : r = 0
  · subst hr
    exact (s.failJob_ends job _).weaken (by omega) rfl rfl rfl
  · rw [s.transmit_pos job hr]
    exact (s.callExchange_ends job r out).weaken (by omega) rfl rfl rfl

theorem State.retransmit_ends (s : State) (w : Work) (out : List Byte) :
    EndsWithin (w.retries - 1 + w.job.exchangesAfter s.cfg) s (s.retransmit w out) := s.transmit_ends _ _ _

theorem State.returnBlock_ends (s : State) (job : Job) (b : Block) :
    EndsWithin (job.exchangesAfter s.cfg) s (s.returnBlock job b) := by
  match job with
  | .xmit =>
    rw [State.returnBlock, State.endXmit_eq]
    exact ⟨.inl ⟨rfl, .inl rfl⟩, rfl, rfl, rfl⟩
  | .opening a .resynch =>
    show EndsWithin _ s (s.endResynch a b)
    unfold State.endResynch
    split
    · exact (State.transmit_ends _ (.opening a .ifs) _ _).weaken (Nat.le_refl _) rfl rfl rfl
    · exact s.failJob_ends _ _
  | .opening a .ifs =>
    show EndsWithin _ s (s.endIfs a b)
    unfold State.endIfs
    split
    · exact ⟨.inl ⟨rfl, .inl rfl⟩, rfl, rfl, rfl⟩
    · exact s.failJob_ends _ _

theorem State.armUnknown_ends (s : State) (w : Work) :
    EndsWithin (w.retries - 1 + w.job.exchangesAfter s.cfg) s (s.armUnknown w) := by
  unfold State.armUnknown
  split
  · exact s.retransmit_ends w _
  · exact (s.failJob_ends _ _).weaken (by omega) rfl rfl rfl

theorem State.storeSlot_keeps (s : State) (p : BitVec 1) (raw : List Byte) :
    (s.storeSlot p raw).cfg = s.cfg ∧ (s.storeSlot p raw).cmd = s.cmd ∧ (s.storeSlot p raw).inputs = s.inputs := by
  unfold State.storeSlot
  split <;> exact ⟨rfl, rfl, rfl⟩

theorem State.armEdc_ends (s : State) (w : Work) :
    EndsWithin (w.retries - 1 + w.job.exchangesAfter s.cfg) s (s.armEdc w) := by
  obtain ⟨h1, h2, h3⟩ := State.storeSlot_keeps { s with sseq := s.sseq ^^^ 1#1 } (s.sseq ^^^ 1#1) (s.edcFrame w)
  exact (State.retransmit_ends _ w _).weaken (by rw [h1]) h1 h2 h3

/-- The arm of a PCB octet (43_t1_protocol R192 to R199) leaves a waiting command fewer exchange calls. -/
theorem State.reply_ends {s : State} {w : Work} (h : s.work = some w) {i : Instr} (hi : i.format = .pcb) :
    EndsWithin (w.retries - 1 + w.job.exchangesAfter s.cfg) s (s.reply i) := by
  cases i
  all_goals first
    | (simp only [State.reply, State.whileWaiting_some h]; exact s.armUnknown_ends w)
    | exact absurd hi (by decide)
    | simp only [State.reply, State.whileWaiting_some h]
  case pcbI => exact (State.returnBlock_ends _ _ _).weaken (Nat.le_add_left _ _) rfl rfl rfl
  case pcbR =>
    unfold State.armR
    split
    · exact (s.failJob_ends _ _).weaken (by omega) rfl rfl rfl
    · exact s.retransmit_ends w _
  case pcbResynchResponse =>
    unfold State.armResynch
    split
    · exact (State.returnBlock_ends _ _ _).weaken (Nat.le_add_left _ _) rfl rfl rfl
    · exact s.armUnknown_ends w
  case pcbIfsResponse =>
    unfold State.armIfs
    split
    · exact (State.returnBlock_ends _ _ _).weaken (Nat.le_add_left _ _) rfl rfl rfl
    · exact s.armUnknown_ends w
  case pcbWtxRequest =>
    unfold State.armWtx
    split
    · exact s.retransmit_ends w _
    · exact (s.failJob_ends _ _).weaken (by omega) rfl rfl rfl

/-- An answer leaves a waiting command fewer exchange calls, whatever it is (70_reset_and_hazards R271). -/
theorem State.answer_ends {s : State} {w : Work} (h : s.work = some w) (a : Answer) :
    EndsWithin (w.exchangesLeft s.cfg - 1) s (s.answer a) := by
  have hk : w.retries - 1 + w.job.exchangesAfter s.cfg ≤ w.exchangesLeft s.cfg - 1 := by
    unfold Work.exchangesLeft; omega
  have fail := fun (s' : State) e => (s'.failJob_ends w.job e)
  unfold State.answer
  rcases s.receive_cases a with ⟨hn, -⟩ | ⟨w', hw, hc⟩
  · rw [h] at hn; cases hn
  · rw [h] at hw; cases hw
    rcases hc with ⟨-, hr⟩ | ⟨g, -, hc⟩
    · rw [hr]; exact (fail _ _).weaken (by omega) rfl rfl rfl
    · rcases hc with ⟨-, hr⟩ | ⟨-, hr⟩ | ⟨b, -, hc⟩
      · rw [hr]; exact (fail _ _).weaken (by simp only; omega) rfl rfl rfl
      · rw [hr]; exact (State.armEdc_ends _ _).weaken hk rfl rfl rfl
      · rcases hc with ⟨e, -, hr⟩ | ⟨i, hd, hr⟩
        · rw [hr]; exact (State.armUnknown_ends _ _).weaken hk rfl rfl rfl
        · rw [hr]; exact (State.reply_ends (s := { s with work := some { w with rx := g.take fbCap } }) rfl
            (format_of_decodePcb hd)).weaken hk rfl rfl rfl

end Sys2Proof.Machine
end

