-- ==== Sys2Proof/Laws/Invariants.lean ====
section
/-! SUPPORT. The invariants depend on the fields they name alone, so an update of any other field keeps them. -/

namespace Sys2Proof.Machine

/-- `MemoryInv` is about the five byte spaces and the parameters alone. -/
theorem State.MemoryInv.congr {s t : State} (h : s.MemoryInv) (hc : t.cfg = s.cfg) (htb : t.tb = s.tb)
    (hdb : t.db = s.db) (hfb : t.fb = s.fb) (h0 : t.ls0 = s.ls0) (h1 : t.ls1 = s.ls1) : t.MemoryInv := by
  obtain ⟨a, b, c, d, e, f, g, i, j, k⟩ := h
  constructor <;> simpa only [hc, htb, hdb, hfb, h0, h1]

/-- `CountInv` is about four registers and the parameters alone. -/
theorem State.CountInv.congr {s t : State} (h : s.CountInv) (hc : t.cfg = s.cfg) (ht : t.tlen = s.tlen)
    (hf : t.flen = s.flen) (h0 : t.ls0len = s.ls0len) (h1 : t.ls1len = s.ls1len) : t.CountInv := by
  obtain ⟨a, b, c, d⟩ := h
  constructor <;> simpa only [hc, ht, hf, h0, h1]

/-- `StatusInv` is about STATUS, ERR, SUBERR and whether a command waits. -/
theorem State.StatusInv.congr {s t : State} (h : s.StatusInv) (hs : t.status = s.status) (he : t.err = s.err)
    (hu : t.subErr = s.subErr) (hw : t.work.isSome = s.work.isSome) : t.StatusInv := by
  obtain ⟨a, b, c, d, e⟩ := h
  constructor <;> simpa only [hs, he, hu, hw]

/-- `ArenaInv` is about the arena, its two counts and the parameters alone. -/
theorem State.ArenaInv.congr {s t : State} (h : s.ArenaInv) (hc : t.cfg = s.cfg) (hn : t.nodes = s.nodes)
    (hk : t.ncnt = s.ncnt) (hv : t.vused = s.vused) : t.ArenaInv := by
  obtain ⟨a, b, c, d, e, f, g, i, j, k, l, m⟩ := h
  constructor <;> simpa only [hc, hn, hk, hv]

/-- The Boolean test of a configuration says what the structure says (00_scope R4, R5). -/
theorem Config.wf_iff (c : Config) : c.wf = true ↔ c.WellFormed := by
  simp only [Config.wf, Bool.and_eq_true, decide_eq_true_eq]
  exact ⟨fun ⟨⟨⟨⟨⟨a, b⟩, d⟩, e⟩, f⟩, g⟩ => ⟨a, b, d, e, f, g⟩, fun h => ⟨⟨⟨⟨⟨h.1, h.2⟩, h.3⟩, h.4⟩, h.5⟩, h.6⟩⟩

end Sys2Proof.Machine
end

