-- ==== Sys2Proof/Laws/PerInstr.lean ====
section
/-! SUPPORT. Per instruction: the octet of an instruction lies in its row of `spec/opcode_table.json`, whatever the
values of its fields and of the S-block codes. -/

namespace Sys2Proof.Laws

/-- The mask of a row: the bits it fixes. The S-block rows are compared on bits 7-6, the bits that hold for every table
of codes (30_encoding R98). -/
def rowMask : Instr → Byte
  | .pcbI _ _ _ => 0x80#8
  | .pcbR _ _ _ => 0xC0#8
  | i => match i.format with
    | .cmd => 0xFF#8
    | .pcb => 0xC0#8

/-- The match of a row: the value of the bits it fixes. -/
def rowMatch : Instr → Byte
  | .nop => 0x00#8
  | .srst => 0x01#8
  | .tagdec => 0x10#8
  | .tagenc => 0x11#8
  | .lendec => 0x12#8
  | .lenenc => 0x13#8
  | .tlvparse => 0x20#8
  | .tlvparseat => 0x21#8
  | .tlvser => 0x22#8
  | .tlvfind => 0x23#8
  | .tlvappend => 0x24#8
  | .tlvnewp => 0x25#8
  | .tlvnewc => 0x26#8
  | .tlvsetv => 0x27#8
  | .tlvget => 0x28#8
  | .tlvgetv => 0x29#8
  | .tlvclr => 0x2A#8
  | .t1mki => 0x30#8
  | .t1mkr => 0x31#8
  | .t1mks => 0x32#8
  | .t1parse => 0x33#8
  | .t1edc => 0x34#8
  | .t1open => 0x40#8
  | .t1xmit => 0x41#8
  | .pcbI _ _ _ => 0x00#8
  | .pcbR _ _ _ => 0x80#8
  | .pcbResynchRequest => 0xC0#8
  | .pcbResynchResponse => 0xC0#8
  | .pcbIfsRequest => 0xC0#8
  | .pcbIfsResponse => 0xC0#8
  | .pcbAbortRequest => 0xC0#8
  | .pcbAbortResponse => 0xC0#8
  | .pcbWtxRequest => 0xC0#8
  | .pcbWtxResponse => 0xC0#8
  | .pcbVppStateErrorResponse => 0xC0#8

/-- The octet of the instruction has the bits its row fixes. -/
def OctetMatchesRow.Statement (i : Instr) : Prop :=
  ∀ sc : SCode, encodeOctet sc i &&& rowMask i = rowMatch i

theorem pcbOctetS_row : ∀ code : BitVec 6, pcbOctetS code &&& 0xC0#8 = 0xC0#8 := by decide

/-- A row that fixes all its bits, and whose octet no table of codes changes. -/
theorem row_of_octet (i : Instr) (b : Byte) (h : (fun sc => encodeOctet sc i) = fun _ => b)
    (hb : b &&& rowMask i = rowMatch i) : OctetMatchesRow.Statement i := fun sc => by
  rw [show encodeOctet sc i = b from congrFun h sc]; exact hb

theorem OctetMatchesRow.nop : OctetMatchesRow.Statement .nop := row_of_octet _ _ rfl (by decide)
theorem OctetMatchesRow.srst : OctetMatchesRow.Statement .srst := row_of_octet _ _ rfl (by decide)
theorem OctetMatchesRow.tagdec : OctetMatchesRow.Statement .tagdec := row_of_octet _ _ rfl (by decide)
theorem OctetMatchesRow.tagenc : OctetMatchesRow.Statement .tagenc := row_of_octet _ _ rfl (by decide)
theorem OctetMatchesRow.lendec : OctetMatchesRow.Statement .lendec := row_of_octet _ _ rfl (by decide)
theorem OctetMatchesRow.lenenc : OctetMatchesRow.Statement .lenenc := row_of_octet _ _ rfl (by decide)
theorem OctetMatchesRow.tlvparse : OctetMatchesRow.Statement .tlvparse := row_of_octet _ _ rfl (by decide)
theorem OctetMatchesRow.tlvparseat : OctetMatchesRow.Statement .tlvparseat := row_of_octet _ _ rfl (by decide)
theorem OctetMatchesRow.tlvser : OctetMatchesRow.Statement .tlvser := row_of_octet _ _ rfl (by decide)
theorem OctetMatchesRow.tlvfind : OctetMatchesRow.Statement .tlvfind := row_of_octet _ _ rfl (by decide)
theorem OctetMatchesRow.tlvappend : OctetMatchesRow.Statement .tlvappend := row_of_octet _ _ rfl (by decide)
theorem OctetMatchesRow.tlvnewp : OctetMatchesRow.Statement .tlvnewp := row_of_octet _ _ rfl (by decide)
theorem OctetMatchesRow.tlvnewc : OctetMatchesRow.Statement .tlvnewc := row_of_octet _ _ rfl (by decide)
theorem OctetMatchesRow.tlvsetv : OctetMatchesRow.Statement .tlvsetv := row_of_octet _ _ rfl (by decide)
theorem OctetMatchesRow.tlvget : OctetMatchesRow.Statement .tlvget := row_of_octet _ _ rfl (by decide)
theorem OctetMatchesRow.tlvgetv : OctetMatchesRow.Statement .tlvgetv := row_of_octet _ _ rfl (by decide)
theorem OctetMatchesRow.tlvclr : OctetMatchesRow.Statement .tlvclr := row_of_octet _ _ rfl (by decide)
theorem OctetMatchesRow.t1mki : OctetMatchesRow.Statement .t1mki := row_of_octet _ _ rfl (by decide)
theorem OctetMatchesRow.t1mkr : OctetMatchesRow.Statement .t1mkr := row_of_octet _ _ rfl (by decide)
theorem OctetMatchesRow.t1mks : OctetMatchesRow.Statement .t1mks := row_of_octet _ _ rfl (by decide)
theorem OctetMatchesRow.t1parse : OctetMatchesRow.Statement .t1parse := row_of_octet _ _ rfl (by decide)
theorem OctetMatchesRow.t1edc : OctetMatchesRow.Statement .t1edc := row_of_octet _ _ rfl (by decide)
theorem OctetMatchesRow.t1open : OctetMatchesRow.Statement .t1open := row_of_octet _ _ rfl (by decide)
theorem OctetMatchesRow.t1xmit : OctetMatchesRow.Statement .t1xmit := row_of_octet _ _ rfl (by decide)

theorem OctetMatchesRow.pcbI (ns more : BitVec 1) (ignored : BitVec 5) :
    OctetMatchesRow.Statement (.pcbI ns more ignored) := fun _ =>
  (by decide : ∀ (a b : BitVec 1) (c : BitVec 5), pcbOctetI a b c &&& 0x80#8 = 0x00#8) ns more ignored

theorem OctetMatchesRow.pcbR (ignored nr : BitVec 1) (err : BitVec 4) :
    OctetMatchesRow.Statement (.pcbR ignored nr err) := fun _ =>
  (by decide : ∀ (a b : BitVec 1) (c : BitVec 4), pcbOctetR a b c &&& 0xC0#8 = 0x80#8) ignored nr err

theorem OctetMatchesRow.pcbResynchRequest : OctetMatchesRow.Statement .pcbResynchRequest := fun sc => pcbOctetS_row sc.resynchRequest
theorem OctetMatchesRow.pcbResynchResponse : OctetMatchesRow.Statement .pcbResynchResponse := fun sc => pcbOctetS_row sc.resynchResponse
theorem OctetMatchesRow.pcbIfsRequest : OctetMatchesRow.Statement .pcbIfsRequest := fun sc => pcbOctetS_row sc.ifsRequest
theorem OctetMatchesRow.pcbIfsResponse : OctetMatchesRow.Statement .pcbIfsResponse := fun sc => pcbOctetS_row sc.ifsResponse
theorem OctetMatchesRow.pcbAbortRequest : OctetMatchesRow.Statement .pcbAbortRequest := fun sc => pcbOctetS_row sc.abortRequest
theorem OctetMatchesRow.pcbAbortResponse : OctetMatchesRow.Statement .pcbAbortResponse := fun sc => pcbOctetS_row sc.abortResponse
theorem OctetMatchesRow.pcbWtxRequest : OctetMatchesRow.Statement .pcbWtxRequest := fun sc => pcbOctetS_row sc.wtxRequest
theorem OctetMatchesRow.pcbWtxResponse : OctetMatchesRow.Statement .pcbWtxResponse := fun sc => pcbOctetS_row sc.wtxResponse
theorem OctetMatchesRow.pcbVppStateErrorResponse : OctetMatchesRow.Statement .pcbVppStateErrorResponse := fun sc => pcbOctetS_row sc.vppStateErrorResponse

end Sys2Proof.Laws
end

