-- ==== Sys2Proof/Tests/Slice0.lean ====
section
/-! SUPPORT. Tests of the model against words, examples and corner cases written in the spec (each named beside its
theorem), the smoke test of the well-formedness checks, and for every statement with hypotheses a witness that meets
them. -/

namespace Sys2Proof.Tests

open Sys2Proof.Machine

/-! ### Well-formedness: each check refuses an ill-formed term -/

theorem test_wf_pcbI_more : (Instr.pcbI 0#1 1#1 0#5).wellFormed = false := by decide
theorem test_wf_pcbI_ignored : (Instr.pcbI 1#1 0#1 1#5).wellFormed = false := by decide
theorem test_wf_pcbR_ignored : (Instr.pcbR 1#1 0#1 0#4).wellFormed = false := by decide
theorem test_wf_pcbR_err : (Instr.pcbR 0#1 1#1 3#4).wellFormed = false := by decide
theorem test_wf_good : (Instr.pcbI 1#1 0#1 0#5).wellFormed = true ∧ (Instr.pcbR 0#1 1#1 2#4).wellFormed = true ∧
    Instr.tagdec.wellFormed = true ∧ Instr.pcbWtxRequest.wellFormed = true := by decide
theorem test_wf_config_good : Config.standard.wf = true := by decide
theorem test_wf_config_scode :
    Config.wf { Config.standard with scode := { SCode.standard with wtxRequest := 0x20#6 } } = false := by decide
theorem test_wf_config_tbCap_small : Config.wf { Config.standard with tbCap := 15 } = false := by decide
theorem test_wf_config_tbCap_large : Config.wf { Config.standard with tbCap := 4294967296 } = false := by decide
theorem test_wf_config_nodeCap : Config.wf { Config.standard with nodeCap := 0 } = false := by decide
theorem test_wf_config_depthMax : Config.wf { Config.standard with depthMax := 0 } = false := by decide
theorem test_wf_config_lengths :
    Config.wf { Config.standard with valCap := 4294967296 - 2560 } = false := by decide

/-! ### Decoding: every row's octet, written out from 30_encoding R81 and R96 to R100 -/

theorem test_decode_system_tag : decodeCommand 0b00000000#8 = .ok .nop ∧ decodeCommand 0b00000001#8 = .ok .srst ∧
    decodeCommand 0b00010000#8 = .ok .tagdec ∧ decodeCommand 0b00010001#8 = .ok .tagenc ∧
    decodeCommand 0b00010010#8 = .ok .lendec ∧ decodeCommand 0b00010011#8 = .ok .lenenc := by decide
theorem test_decode_tlv : decodeCommand 0b00100000#8 = .ok .tlvparse ∧ decodeCommand 0b00100001#8 = .ok .tlvparseat ∧
    decodeCommand 0b00100010#8 = .ok .tlvser ∧ decodeCommand 0b00100011#8 = .ok .tlvfind ∧
    decodeCommand 0b00100100#8 = .ok .tlvappend ∧ decodeCommand 0b00100101#8 = .ok .tlvnewp ∧
    decodeCommand 0b00100110#8 = .ok .tlvnewc ∧ decodeCommand 0b00100111#8 = .ok .tlvsetv ∧
    decodeCommand 0b00101000#8 = .ok .tlvget ∧ decodeCommand 0b00101001#8 = .ok .tlvgetv ∧
    decodeCommand 0b00101010#8 = .ok .tlvclr := by decide
theorem test_decode_t1 : decodeCommand 0b00110000#8 = .ok .t1mki ∧ decodeCommand 0b00110001#8 = .ok .t1mkr ∧
    decodeCommand 0b00110010#8 = .ok .t1mks ∧ decodeCommand 0b00110011#8 = .ok .t1parse ∧
    decodeCommand 0b00110100#8 = .ok .t1edc ∧ decodeCommand 0b01000000#8 = .ok .t1open ∧
    decodeCommand 0b01000001#8 = .ok .t1xmit := by decide
theorem test_decode_illegal : decodeCommand 0x02#8 = .error (.illegalCommand 0x02#8) ∧
    decodeCommand 0x2B#8 = .error (.illegalCommand 0x2B#8) ∧
    decodeCommand 0xFF#8 = .error (.illegalCommand 0xFF#8) := by decide
theorem test_decode_pcb_i_r : decodePcb SCode.standard 0b01000000#8 = .ok (.pcbI 1#1 0#1 0#5) ∧
    decodePcb SCode.standard 0b00100011#8 = .ok (.pcbI 0#1 1#1 0b00011#5) ∧
    decodePcb SCode.standard 0b10010001#8 = .ok (.pcbR 0#1 1#1 1#4) ∧
    decodePcb SCode.standard 0b10100010#8 = .ok (.pcbR 1#1 0#1 2#4) := by decide
theorem test_decode_pcb_s : decodePcb SCode.standard 0b11000000#8 = .ok .pcbResynchRequest ∧
    decodePcb SCode.standard 0b11100000#8 = .ok .pcbResynchResponse ∧
    decodePcb SCode.standard 0b11000001#8 = .ok .pcbIfsRequest ∧
    decodePcb SCode.standard 0b11100001#8 = .ok .pcbIfsResponse ∧
    decodePcb SCode.standard 0b11000010#8 = .ok .pcbAbortRequest ∧
    decodePcb SCode.standard 0b11100010#8 = .ok .pcbAbortResponse ∧
    decodePcb SCode.standard 0b11000011#8 = .ok .pcbWtxRequest ∧
    decodePcb SCode.standard 0b11100011#8 = .ok .pcbWtxResponse ∧
    decodePcb SCode.standard 0b11100100#8 = .ok .pcbVppStateErrorResponse ∧
    decodePcb SCode.standard 0b11000100#8 = .error (.unknownSCode 4#6) := by decide
theorem test_table_word : decodeTableWord 8 0x00 = some .nop ∧ decodeTableWord 8 0x33 = some .t1parse ∧
    decodeTableWord 8 0x80 = some (.pcbR 0#1 0#1 0#4) ∧ decodeTableWord 8 0xE3 = some .pcbWtxResponse ∧
    decodeTableWord 8 0x42 = some (.pcbI 1#1 0#1 2#5) ∧ decodeTableWord 0 0 = none := by decide

/-! ### Small states -/

/-- The state an instruction gives. -/
def after (i : Instr) (s : State) : State :=
  match exec i s with
  | .next t => t
  | _ => s

/-- The state a step gives. -/
def stepped (s : State) : State :=
  match step s with
  | .next t => t
  | _ => s

/-- After reset, with octets in TB. -/
def withTb (bs : List Byte) (a0 : Word) : State :=
  { State.reset with tb := Memory.writeRange [] 0 bs, tlen := BitVec.ofNat 32 bs.length, a0 := a0 }

/-- After reset, with octets in DB and an address word. -/
def withDb (bs : List Byte) (a0 a1 : Word) : State :=
  { State.reset with db := Memory.writeRange [] 0 bs, dlen := BitVec.ofNat 16 bs.length, a0 := a0, a1 := a1 }

/-- After reset, with a frame in FB. -/
def withFb (bs : List Byte) : State :=
  { State.reset with fb := Memory.writeRange [] 0 bs, flen := BitVec.ofNat 16 bs.length }

/-- The tree of the example of 41_tlv_unit R143, an empty constructed root (R151) and a primitive root (R150). -/
def exampleNodes : List Node :=
  [⟨⟨15#28, 1#2, true⟩, 5, .cons [1, 2], none⟩, ⟨⟨4#28, 2#2, false⟩, 1, .prim [0xAA#8], some 0⟩,
    ⟨⟨5#28, 2#2, false⟩, 0, .prim [], some 0⟩, ⟨⟨16#28, 0#2, true⟩, 0, .cons [], none⟩,
    ⟨⟨4#28, 0#2, false⟩, 3, .prim [1#8, 2#8, 3#8], none⟩]

/-- A state with octets in TB, DB and FB and the example arena; the parameters, three operand registers and TLEN as
given. -/
def richIn (c : Config) (a0 a1 a2 tlen : Word) : State :=
  { State.resetWith c with
    tb := [(0, 0x6F#8), (1, 5#8), (2, 0x84#8), (3, 1#8), (4, 0xAA#8), (5, 0x85#8)]
    db := [(0, 0xAA#8), (1, 0x55#8)]
    fb := [(0, 0x12#8), (2, 2#8), (3, 0xAA#8), (4, 0x55#8), (5, 0xEF#8)]
    a0 := a0, a1 := a1, a2 := a2, tlen := tlen, dlen := 2#16, flen := 6#16
    nodes := exampleNodes, ncnt := 5#32, vused := 4#32 }

/-- The same with the parameters of 00_scope R4. -/
def rich (a0 a1 a2 tlen : Word) : State := richIn Config.standard a0 a1 a2 tlen

/-- A T=1 command that waits, with the events to come. -/
def waiting (w : Work) (es : List Input) : State :=
  { rich 0#32 0#32 0#32 7#32 with status := 1#32, work := some w, inputs := es }

/-- The answer `00 00 02 90 00 92` of the example of 43_t1_protocol R202. -/
def goodI : List Byte := [0x00#8, 0x00#8, 0x02#8, 0x90#8, 0x00#8, 0x92#8]

/-- `goodI` with a wrong EDC. -/
def badEdc : List Byte := [0x00#8, 0x00#8, 0x02#8, 0x90#8, 0x00#8, 0x93#8]

/-- The I-block that the example of 43_t1_protocol R202 sends. -/
def sentI : List Byte := [0x00#8, 0x00#8, 0x04#8, 0x00#8, 0xA4#8, 0x00#8, 0x00#8, 0xA0#8]

/-- The working storage of a T1XMIT with `r` retries that received `rx`. -/
def xmitting (r : Nat) (rx : List Byte) : Work := ⟨.xmit, r, sentI, rx⟩

/-- T1OPEN after its RESYNCH_REQUEST `00 C0 00 C0` (43_t1_protocol R200). -/
def resynching (a : Nat) (rx : List Byte) : Work := ⟨.opening a .resynch, 3, [0x00#8, 0xC0#8, 0x00#8, 0xC0#8], rx⟩

/-- T1OPEN after its IFS_REQUEST `00 C1 01 20 E0` (43_t1_protocol R200). -/
def negotiating (a : Nat) (rx : List Byte) : Work :=
  ⟨.opening a .ifs, 3, [0x00#8, 0xC1#8, 0x01#8, 0x20#8, 0xE0#8], rx⟩

/-! ### Commands: examples and corner cases of their rules -/

/-- 44_system R221. -/
theorem test_nop : (stepped { State.reset with
    status := 4#32, err := 0x11#8, inputs := [.host (.writeReg 0 0#32)] }).err = 0#8 := by decide
/-- 44_system R222. -/
theorem test_srst : (after .srst (rich 1#32 2#32 3#32 7#32)).ncnt = 0#32 ∧
    (after .srst (rich 1#32 2#32 3#32 7#32)).ifs = 32#8 ∧ (after .srst (rich 1#32 2#32 3#32 7#32)).cmd = 1#8 := by
  decide
/-- 40_tag_len_unit R121: `1F 81 00` gives 0x80 and 3. -/
theorem test_tagdec : (after .tagdec (withTb [0x1F#8, 0x81#8, 0x00#8] 0#32)).r0 = 0x80#32 ∧
    (after .tagdec (withTb [0x1F#8, 0x81#8, 0x00#8] 0#32)).r1 = 3#32 := by decide
/-- 40_tag_len_unit R121: `1F` as the last valid octet is MalformedTag. -/
theorem test_tagdec_truncated : (after .tagdec (withTb [0x00#8, 0x1F#8] 1#32)).err = 0x10#8 := by decide
/-- 40_tag_len_unit R122: 0x00004000 appends `1F 81 80 00`. -/
theorem test_tagenc : (after .tagenc (withTb [] 0x4000#32)).tbValid = [0x1F#8, 0x81#8, 0x80#8, 0x00#8] := by decide
/-- 40_tag_len_unit R122: 0x5000000F appends `6F`, after what is there. -/
theorem test_tagenc_short : (after .tagenc (withTb [0x99#8] 0x5000000F#32)).tbValid = [0x99#8, 0x6F#8] := by decide
/-- 40_tag_len_unit R123: `82 01 00` gives 256 and 3. -/
theorem test_lendec : (after .lendec (withTb [0x82#8, 0x01#8, 0x00#8] 0#32)).r0 = 256#32 ∧
    (after .lendec (withTb [0x82#8, 0x01#8, 0x00#8] 0#32)).r1 = 3#32 := by decide
/-- 40_tag_len_unit R123: 0x85 is MalformedTlv. -/
theorem test_lendec_long : (after .lendec (withTb [0x85#8, 1#8, 1#8, 1#8, 1#8, 1#8] 0#32)).err = 0x11#8 := by decide
/-- 40_tag_len_unit R124: 300 appends `82 01 2C`. -/
theorem test_lenenc : (after .lenenc (withTb [] 300#32)).tbValid = [0x82#8, 0x01#8, 0x2C#8] := by decide
/-- 40_tag_len_unit R124: 0x1000000 appends `84 01 00 00 00`. -/
theorem test_lenenc_four : (after .lenenc (withTb [] 0x1000000#32)).tbValid =
    [0x84#8, 0x01#8, 0x00#8, 0x00#8, 0x00#8] := by decide
/-- 41_tlv_unit R143. -/
theorem test_tlvparse : (after .tlvparse
    (withTb [0x6F#8, 0x05#8, 0x84#8, 0x01#8, 0xAA#8, 0x85#8, 0x00#8] 9#32)).nodes = exampleNodes.take 3 := by decide
/-- 41_tlv_unit R141: a child may not pass its parent's content. -/
theorem test_tlvparse_child : (after .tlvparse
    (withTb [0x30#8, 0x02#8, 0x04#8, 0x01#8, 0xAA#8] 0#32)).err = 0x11#8 := by decide
/-- 41_tlv_unit R144: A0 = 2 gives a new root and R1 = 5. -/
theorem test_tlvparseat : (after .tlvparseat (rich 2#32 0#32 0#32 7#32)).r0 = 5#32 ∧
    (after .tlvparseat (rich 2#32 0#32 0#32 7#32)).r1 = 5#32 := by decide
/-- 41_tlv_unit R145. -/
theorem test_tlvser : (after .tlvser (rich 0#32 0#32 0#32 0#32)).tbValid =
    [0x6F#8, 0x05#8, 0x84#8, 0x01#8, 0xAA#8, 0x85#8, 0x00#8] := by decide
/-- 41_tlv_unit R147, its three examples. -/
theorem test_tlvfind : (after .tlvfind (rich 0#32 0x20000005#32 noneWord 7#32)).r0 = 2#32 ∧
    (after .tlvfind (rich 0#32 0x80000000#32 1#32 7#32)).r0 = 2#32 ∧
    (after .tlvfind (rich 0#32 0x80000000#32 2#32 7#32)).r0 = noneWord := by decide
/-- 41_tlv_unit R147: an A2 that is no child of A0. -/
theorem test_tlvfind_after : (after .tlvfind (rich 0#32 0x80000000#32 3#32 7#32)).err = 0x44#8 := by decide
/-- 41_tlv_unit R149: the empty node gets its first child and length 5. -/
theorem test_tlvappend : (after .tlvappend (rich 3#32 4#32 0#32 7#32)).nodes[3]? =
    some ⟨⟨16#28, 0#2, true⟩, 5, .cons [4], none⟩ := by decide
/-- 41_tlv_unit R149: a node appended to itself would close a cycle. -/
theorem test_tlvappend_self : (after .tlvappend (rich 3#32 3#32 0#32 7#32)).err = 0x44#8 := by decide
/-- 41_tlv_unit R150. -/
theorem test_tlvnewp : (after .tlvnewp (rich 4#32 1#32 2#32 7#32)).nodes[5]? =
    some ⟨⟨4#28, 0#2, false⟩, 2, .prim [0x05#8, 0x84#8], none⟩ := by decide
/-- 41_tlv_unit R151. -/
theorem test_tlvnewc : (after .tlvnewc (rich 0x40000010#32 0#32 0#32 7#32)).nodes[5]? =
    some ⟨⟨16#28, 0#2, true⟩, 0, .cons [], none⟩ := by decide
/-- 41_tlv_unit R152: the root's length becomes 7. -/
theorem test_tlvsetv : (after .tlvsetv (rich 1#32 0#32 3#32 7#32)).nodes[0]? =
    some ⟨⟨15#28, 1#2, true⟩, 7, .cons [1, 2], none⟩ ∧
    (after .tlvsetv (rich 1#32 0#32 3#32 7#32)).vused = 6#32 := by decide
/-- 41_tlv_unit R153. -/
theorem test_tlvget : (after .tlvget (rich 0#32 0#32 0#32 7#32)).r0 = 0x5000000F#32 ∧
    (after .tlvget (rich 0#32 0#32 0#32 7#32)).r2 = noneWord ∧
    (after .tlvget (rich 0#32 0#32 0#32 7#32)).r3 = 2#32 := by decide
/-- 41_tlv_unit R154. -/
theorem test_tlvgetv : (after .tlvgetv (rich 1#32 0#32 0#32 0#32)).tbValid = [0xAA#8] := by decide
/-- 41_tlv_unit R160. -/
theorem test_tlvclr : (after .tlvget (after .tlvclr (rich 0#32 0#32 0#32 7#32))).err = 0x44#8 := by decide
/-- 42_t1_block_unit R172. -/
theorem test_t1mki : (after .t1mki (withDb [0xAA#8, 0x55#8] 0x12#32 0#32)).fbFrame =
    [0x12#8, 0x00#8, 0x02#8, 0xAA#8, 0x55#8, 0xEF#8] ∧
    (after .t1mki (withDb [0xAA#8, 0x55#8] 0x12#32 0#32)).r0 = 0xEF020012#32 := by decide
/-- 42_t1_block_unit R173. -/
theorem test_t1mkr : (after .t1mkr { State.reset with a1 := 1#32, a2 := 1#32 }).fbFrame =
    [0x00#8, 0x91#8, 0x00#8, 0x91#8] := by decide
/-- 42_t1_block_unit R174. -/
theorem test_t1mks : (after .t1mks (withDb [0x20#8] 0#32 1#32)).r0 = 0xE001C100#32 := by decide
/-- 42_t1_block_unit R175. -/
theorem test_t1parse : (after .t1parse (withFb [0x12#8, 0x00#8, 0x02#8, 0xAA#8, 0x55#8, 0xEF#8])).dbData =
    [0xAA#8, 0x55#8] ∧
    (after .t1parse (withFb [0x12#8, 0x00#8, 0x02#8, 0xAA#8, 0x55#8, 0xEF#8])).r1 = 0x12#32 := by decide
/-- 42_t1_block_unit R175: the same with `FB[3]` = `AB`. -/
theorem test_t1parse_edc :
    (after .t1parse (withFb [0x12#8, 0x00#8, 0x02#8, 0xAB#8, 0x55#8, 0xEF#8])).err = 0x20#8 := by decide
/-- 42_t1_block_unit R176. -/
theorem test_t1edc : (after .t1edc (rich 5#32 0#32 0#32 7#32)).r0 = 0xEF#32 ∧
    (after .t1edc (rich 6#32 0#32 0#32 7#32)).r0 = 0#32 := by decide
/-- 43_t1_protocol R200: the answers `00 E0 00 E0` and `00 E1 01 FE 1E` give IFS = 254. -/
theorem test_t1open : (after .t1open { State.reset with
    sseq := 1#1
    inputs := [.line (.ok [0x00#8, 0xE0#8, 0x00#8, 0xE0#8]),
      .line (.ok [0x00#8, 0xE1#8, 0x01#8, 0xFE#8, 0x1E#8])] }).ifs = 254#8 := by decide
/-- 43_t1_protocol R201: the LINE fails three times. -/
theorem test_t1open_fails : (after .t1open { State.reset with
    inputs := [.line .fail, .line .fail, .line .fail] }).subErr = 0x23#8 := by decide
/-- 43_t1_protocol R202. -/
theorem test_t1xmit : (after .t1xmit { withDb [0x00#8, 0xA4#8, 0x00#8, 0x00#8] 0#32 0#32 with
    inputs := [.line (.ok goodI)] }).r0 = 0x92020000#32 := by decide
/-- 43_t1_protocol R205: three frames with a wrong EDC. -/
theorem test_t1xmit_retries : (after .t1xmit { withDb [0x00#8, 0xA4#8, 0x00#8, 0x00#8] 0#32 0#32 with
    inputs := [.line (.ok badEdc), .line (.ok badEdc), .line (.ok badEdc)] }).err = 0x21#8 := by decide

/-! ### The arms of internal_transmit -/

/-- 43_t1_protocol R193, R202. -/
theorem test_pcbI : (after (.pcbI 0#1 0#1 0#5) (waiting (xmitting 3 goodI) [])).dbData = [0x90#8, 0x00#8] := by decide
/-- 43_t1_protocol R194: slot 1 is empty. -/
theorem test_pcbR_empty : (after (.pcbR 0#1 1#1 0#4) (waiting (xmitting 3 []) [])).err = 0x24#8 := by decide
/-- 43_t1_protocol R194. -/
theorem test_pcbR : (after (.pcbR 0#1 0#1 1#4) { waiting (xmitting 3 []) [] with
    ls0 := Memory.writeRange [] 0 sentI, ls0len := 8#16 }).lineOut = some (sentI, 0#32) := by decide
/-- 43_t1_protocol R195: `00 C3 01 05 C7` is answered by `00 E3 01 05 E7`. -/
theorem test_pcbWtxRequest :
    (after .pcbWtxRequest (waiting (xmitting 3 [0x00#8, 0xC3#8, 0x01#8, 0x05#8, 0xC7#8]) [])).lineOut =
      some ([0x00#8, 0xE3#8, 0x01#8, 0x05#8, 0xE7#8], 0#32) := by decide
/-- 43_t1_protocol R197, R200: the IFS_REQUEST `00 C1 01 20 E0` follows. -/
theorem test_pcbResynchResponse :
    (after .pcbResynchResponse (waiting (resynching 1 [0x00#8, 0xE0#8, 0x00#8, 0xE0#8]) [])).lineOut =
      some ([0x00#8, 0xC1#8, 0x01#8, 0x20#8, 0xE0#8], 0#32) := by decide
/-- 43_t1_protocol R198, R200. -/
theorem test_pcbIfsResponse :
    (after .pcbIfsResponse (waiting (negotiating 1 [0x00#8, 0xE1#8, 0x01#8, 0xFE#8, 0x1E#8]) [])).ifs = 254#8 := by
  decide
/-- 43_t1_protocol R199: each is an unknown block, and the same frame goes out again. -/
theorem test_pcb_unknown : ∀ i ∈ ([.pcbResynchRequest, .pcbIfsRequest, .pcbAbortRequest, .pcbAbortResponse,
    .pcbWtxResponse, .pcbVppStateErrorResponse] : List Instr),
    (after i (waiting (xmitting 3 []) [])).lineOut = some (sentI, 0#32) ∧
      (after i (waiting (xmitting 1 []) [])).err = 0x21#8 := by decide
/-- 43_t1_protocol R196: the R-block `00 81 00 81`. -/
theorem test_arm_edc : (stepped (waiting (xmitting 3 []) [.line (.ok badEdc)])).lineOut =
    some ([0x00#8, 0x81#8, 0x00#8, 0x81#8], 0#32) := by decide

/-! ### A table word placed where the next step takes it -/

theorem test_fetch_command : (stepped ({ rich 6#32 0#32 0#32 7#32 with inputs := [] }.withFetchWord 8 0x34)).cmd = 0x34#8 :=
  by decide
theorem test_fetch_reply : (stepped (State.reset.withFetchWord 8 0xE1)).ifs = 32#8 ∧
    (stepped (State.reset.withFetchWord 8 0xE1)).status = 2#32 := by decide

/-! ### The invariants of the small states -/

theorem standard_wf : Config.standard.WellFormed := (Config.wf_iff _).1 (by decide)

/-- The parameters of 00_scope R4 with small stores, which the example arena just fills. -/
def tight : Config := { Config.standard with nodeCap := 5, valCap := 4, depthMax := 2 }

theorem tight_wf : tight.WellFormed := (Config.wf_iff _).1 (by decide)

theorem rich_memory (a0 a1 a2 tlen : Word) : (rich a0 a1 a2 tlen).MemoryInv :=
  (show (rich 0#32 0#32 0#32 0#32).MemoryInv from ⟨by decide, by decide, by decide, by decide, by decide, by decide,
    by decide, by decide, by decide, by decide⟩).congr rfl rfl rfl rfl rfl rfl

theorem tight_memory (a0 a1 a2 tlen : Word) : (richIn tight a0 a1 a2 tlen).MemoryInv :=
  (show (richIn tight 0#32 0#32 0#32 0#32).MemoryInv from ⟨by decide, by decide, by decide, by decide, by decide,
    by decide, by decide, by decide, by decide, by decide⟩).congr rfl rfl rfl rfl rfl rfl

theorem tight_arena (a0 a1 a2 tlen : Word) : (richIn tight a0 a1 a2 tlen).ArenaInv :=
  (show (richIn tight 0#32 0#32 0#32 0#32).ArenaInv from ⟨tight_wf, by decide, by decide, by decide, by decide,
    by decide, by decide, by decide, by decide, by simp [richIn, exampleNodes, sizeSum, sizeAt, Node.size, tagSize, lenSize],
    by decide, by decide⟩).congr rfl rfl rfl rfl

theorem rich_arena (a0 a1 a2 tlen : Word) : (rich a0 a1 a2 tlen).ArenaInv :=
  (show (rich 0#32 0#32 0#32 0#32).ArenaInv from ⟨standard_wf, by decide, by decide, by decide, by decide,
    by decide, by decide, by decide, by decide,
    by simp [rich, richIn, exampleNodes, sizeSum, sizeAt, Node.size, tagSize, lenSize],
    by decide, by decide⟩).congr rfl rfl rfl rfl

theorem waiting_memory (w : Work) (es : List Input) : (waiting w es).MemoryInv :=
  (rich_memory 0#32 0#32 0#32 7#32).congr rfl rfl rfl rfl rfl rfl

theorem waiting_status (w : Work) (es : List Input) : (waiting w es).StatusInv :=
  (show (waiting (xmitting 3 []) []).StatusInv from ⟨by decide, by decide, by decide, by decide, by decide⟩).congr
    rfl rfl rfl rfl

/-! ### Witnesses: states that meet the hypotheses of each statement, at the boundaries of its clauses -/

theorem witness_DecodeEncodeAgree : SCode.standard.WellFormed := by decide

theorem witness_EncodeDecodeAgree :
    decodeOctet SCode.standard .cmd 0x2A#8 = .ok .tlvclr ∧
      decodeOctet SCode.standard .pcb 0x7F#8 = .ok (.pcbI 1#1 1#1 0b11111#5) := by decide

/-- A HOST write to CMD of an idle engine. -/
def commanding (v : Word) : State := { rich 0#32 0#32 0#32 7#32 with inputs := [.host (.writeReg 0 v)] }

theorem witness_StepRunsDecodedCommand : (commanding 0x120#32).busy = false ∧
    (commanding 0x120#32).inputs = .host (.writeReg 0 0x120#32) :: [] ∧
    decodeCommand ((0x120#32).setWidth 8) = .ok .tlvparse := by decide

theorem witness_StepRunsDecodedReply : (waiting (xmitting 3 []) [.line (.ok goodI)]).work = some (xmitting 3 []) ∧
    (waiting (xmitting 3 []) [.line (.ok goodI)]).inputs = .line (.ok goodI) :: [] ∧
    t1Parse 0#1 (goodI.take 259) = .ok ⟨0x00#8, 0x00#8, 0x02#8, [0x90#8, 0x00#8], 0x92#8⟩ ∧
    decodePcb SCode.standard 0x00#8 = .ok (.pcbI 0#1 0#1 0#5) := by decide

theorem witness_StepEndsIllegalCommand : (commanding 0x42#32).busy = false ∧
    (commanding 0x42#32).inputs = .host (.writeReg 0 0x42#32) :: [] ∧
    (0x42#32).setWidth 8 ∉ ([0x00#8, 0x01#8, 0x10#8, 0x11#8, 0x12#8, 0x13#8, 0x20#8, 0x21#8, 0x22#8, 0x23#8, 0x24#8,
      0x25#8, 0x26#8, 0x27#8, 0x28#8, 0x29#8, 0x2A#8, 0x30#8, 0x31#8, 0x32#8, 0x33#8, 0x34#8, 0x40#8, 0x41#8] :
        List Byte) := by decide

/-- One HOST access to an idle engine. -/
def accessing (a : Access) : State := { rich 0#32 0#32 0#32 7#32 with inputs := [.host a] }

theorem witness_HostRegisterAccess_read : (accessing (.readReg 26)).busy = false ∧
    (accessing (.readReg 26)).inputs = .host (.readReg 26) :: [] ∧
    (accessing (.readReg 27)).inputs = .host (.readReg 27) :: [] := by decide

theorem witness_HostRegisterAccess_write : (accessing (.writeReg 12 4096#32)).busy = false ∧
    (accessing (.writeReg 12 4096#32)).inputs = .host (.writeReg 12 4096#32) :: [] ∧ 12 ≠ 0 ∧
    (accessing (.writeReg 12 4097#32)).inputs = .host (.writeReg 12 4097#32) :: [] ∧
    (accessing (.writeReg 16 259#32)).inputs = .host (.writeReg 16 259#32) :: [] ∧
    (accessing (.writeReg 27 1#32)).inputs = .host (.writeReg 27 1#32) :: [] := by decide

theorem accessing_memory (a : Access) : (accessing a).MemoryInv :=
  (rich_memory 0#32 0#32 0#32 7#32).congr rfl rfl rfl rfl rfl rfl

theorem witness_HostBufferAccess_read : (accessing (.readByte .tb 4095)).MemoryInv ∧
    (accessing (.readByte .tb 4095)).busy = false ∧
    (accessing (.readByte .tb 4095)).inputs = .host (.readByte .tb 4095) :: [] :=
  ⟨accessing_memory _, by decide, by decide⟩

theorem witness_HostBufferAccess_write : (accessing (.writeByte .fb 258 1#8)).MemoryInv ∧
    (accessing (.writeByte .fb 258 1#8)).busy = false ∧
    (accessing (.writeByte .fb 258 1#8)).inputs = .host (.writeByte .fb 258 1#8) :: [] ∧
    258 < sizeOfSpace (accessing (.writeByte .fb 258 1#8)) .fb ∧ Space.fb ≠ .ls0 ∧ Space.fb ≠ .ls1 :=
  ⟨accessing_memory _, by decide, by decide, by decide, by decide, by decide⟩

theorem witness_HostBufferAccess_ignored : (accessing (.writeByte .fb 259 1#8)).MemoryInv ∧
    (accessing (.writeByte .fb 259 1#8)).inputs = .host (.writeByte .fb 259 1#8) :: [] ∧
    sizeOfSpace (accessing (.writeByte .fb 259 1#8)) .fb ≤ 259 ∧
    (accessing (.writeByte .ls0 257 1#8)).inputs = .host (.writeByte .ls0 257 1#8) :: [] :=
  ⟨accessing_memory _, by decide, by decide, by decide⟩

theorem witness_HostAccessWhileBusy : (waiting (xmitting 3 []) [.host (.writeReg 0 1#32)]).busy = true ∧
    (waiting (xmitting 3 []) [.host (.writeReg 0 1#32)]).inputs = .host (.writeReg 0 1#32) :: [] ∧
    (waiting (xmitting 3 []) [.host (.readReg 1)]).inputs = .host (.readReg 1) :: [] ∧
    (waiting (xmitting 3 []) [.host (.readReg 2)]).inputs = .host (.readReg 2) :: [] ∧
    (waiting (xmitting 3 []) [.host (.readByte .tb 0)]).inputs = .host (.readByte .tb 0) :: [] ∧
    (waiting (xmitting 3 []) [.host (.writeByte .tb 0 1#8)]).inputs = .host (.writeByte .tb 0 1#8) :: [] ∧
    (waiting (xmitting 3 []) []).StatusInv :=
  ⟨by decide, by decide, by decide, by decide, by decide, by decide, waiting_status _ _⟩

theorem witness_ResetsRestoreEveryValue :
    (waiting (xmitting 3 []) [.hardReset]).inputs = .hardReset :: [] := by decide

theorem witness_StepAlwaysAnswers : (rich 0#32 0#32 0#32 7#32).inputs = [] ∧
    (rich 0#32 0#32 0#32 7#32).work = none ∧ (Instr.pcbWtxRequest).format = .pcb ∧
    ({ rich 0#32 0#32 0#32 7#32 with inputs := [.line .fail] } : State).inputs = .line .fail :: [] := by decide

theorem witness_NopOnlyClears : (commanding 0x100#32).busy = false ∧
    (commanding 0x100#32).inputs = .host (.writeReg 0 0x100#32) :: [] ∧ (0x100#32).setWidth 8 = 0x00#8 := by decide

theorem witness_TagdecReadsTag_empty : (withTb [0x30#8] 1#32).tlen.toNat ≤ (withTb [0x30#8] 1#32).a0.toNat := by decide

theorem witness_TagdecReadsTag_short : (withTb [0x1E#8] 0#32).a0.toNat < (withTb [0x1E#8] 0#32).tlen.toNat ∧
    ((withTb [0x1E#8] 0#32).tb.read 0).toNat % 32 ≠ 31 := by decide

/-- The longest tag whose number fits: 2^28 - 1. -/
def longTag : State := withTb [0x1F#8, 0xFF#8, 0xFF#8, 0xFF#8, 0x7F#8] 0#32

theorem witness_TagdecReadsTag_long : longTag.a0.toNat + 1 + 3 < longTag.tlen.toNat ∧
    (longTag.tb.read 0).toNat % 32 = 31 ∧ (∀ j < 3, 128 ≤ (longTag.tb.read (0 + 1 + j)).toNat) ∧
    (longTag.tb.read (0 + 1 + 3)).toNat < 128 ∧ groupValue longTag.tb.read (0 + 1) 3 < 2 ^ 21 := by decide

/-- A tag whose number is 2^28. -/
def hugeTag : State := withTb [0x1F#8, 0x81#8, 0x80#8, 0x80#8, 0x80#8, 0x00#8] 0#32

theorem witness_TagdecReadsTag_huge : hugeTag.a0.toNat + 1 + 4 < hugeTag.tlen.toNat ∧
    (hugeTag.tb.read 0).toNat % 32 = 31 ∧ (∀ j < 4, 128 ≤ (hugeTag.tb.read (0 + 1 + j)).toNat) ∧
    2 ^ 21 ≤ groupValue hugeTag.tb.read (0 + 1) 4 := by decide

theorem witness_TagdecReadsTag_cut : (withTb [0x1F#8] 0#32).a0.toNat < (withTb [0x1F#8] 0#32).tlen.toNat ∧
    ((withTb [0x1F#8] 0#32).tb.read 0).toNat % 32 = 31 ∧
    (∀ j, 0 + 1 + j < (withTb [0x1F#8] 0#32).tlen.toNat → 128 ≤ ((withTb [0x1F#8] 0#32).tb.read (0 + 1 + j)).toNat) := by
  refine ⟨by decide, by decide, fun j hj => ?_⟩
  have h1 : (withTb [0x1F#8] 0#32).tlen.toNat = 1 := by decide
  omega

/-- Wildcard; one octet too many; the last octet that fits. -/
theorem witness_TagencAppendsTag : (rich 0x80000000#32 0#32 0#32 7#32).MemoryInv ∧ Config.standard.WellFormed ∧
    2 ^ 31 ≤ (rich 0x80000000#32 0#32 0#32 7#32).a0.toNat ∧
    (rich 0x7FFFFFFF#32 0#32 0#32 4092#32).MemoryInv ∧
    4096 < (rich 0x7FFFFFFF#32 0#32 0#32 4092#32).tlen.toNat + (tagOctets 0x7FFFFFFF#32).length ∧
    (rich 0x7FFFFFFF#32 0#32 0#32 4091#32).MemoryInv ∧
    ¬ 4096 < (rich 0x7FFFFFFF#32 0#32 0#32 4091#32).tlen.toNat + (tagOctets 0x7FFFFFFF#32).length :=
  ⟨rich_memory _ _ _ _, standard_wf, by decide, rich_memory _ _ _ _, by decide, rich_memory _ _ _ _, by decide⟩

/-- Nothing to read; the longest short form; the refused first octets 0x80 and 0x85; cut; four octets. -/
theorem witness_LendecReadsLength : (withTb [] 0#32).tlen.toNat ≤ (withTb [] 0#32).a0.toNat ∧
    ((withTb [0x7F#8] 0#32).tb.read 0).toNat < 128 ∧ ((withTb [0x80#8] 0#32).tb.read 0).toNat = 128 ∧
    132 < ((withTb [0x85#8] 0#32).tb.read 0).toNat ∧
    (withTb [0x84#8, 1#8, 2#8, 3#8] 0#32).tlen.toNat < 0 + 1 + (0x84 - 128) ∧
    ¬ (withTb [0x84#8, 1#8, 2#8, 3#8, 4#8] 0#32).tlen.toNat < 0 + 1 + (0x84 - 128) := by decide

theorem witness_LenencAppendsLength : (rich 127#32 0#32 0#32 4096#32).MemoryInv ∧ Config.standard.WellFormed ∧
    4096 < (rich 127#32 0#32 0#32 4096#32).tlen.toNat + (lengthOctets 127).length ∧
    (rich 128#32 0#32 0#32 4094#32).MemoryInv ∧
    ¬ 4096 < (rich 128#32 0#32 0#32 4094#32).tlen.toNat + (lengthOctets 128).length :=
  ⟨rich_memory _ _ _ _, standard_wf, by decide, rich_memory _ _ _ _, by decide⟩

/-- The tree of the example of 41_tlv_unit R143. -/
def exampleTree : Tree :=
  .cons ⟨15#28, 1#2, true⟩ [.prim ⟨4#28, 2#2, false⟩ [0xAA#8], .prim ⟨5#28, 2#2, false⟩ []]

/-- The empty arena of `tight`, with room for the tree and two nodes more. -/
def parsing : State := { richIn tight 0#32 0#32 0#32 7#32 with nodes := [], ncnt := 0#32, vused := 0#32 }

theorem witness_TlvparseStoresTree : exampleTree.fits parsing.cfg.depthMax = true ∧
    octetsAt parsing.tb.read 0 exampleTree.enc.length = exampleTree.enc ∧
    0 + exampleTree.enc.length ≤ parsing.tlen.toNat ∧ parsing.ncnt.toNat + exampleTree.count ≤ parsing.cfg.nodeCap ∧
    parsing.vused.toNat + exampleTree.valueBytes ≤ parsing.cfg.valCap ∧ 0 = parsing.a0.toNat := by decide

/-- No such node; one octet too many; the last octet that fits. -/
theorem witness_TlvserAppendsEncoding : (rich 5#32 0#32 0#32 7#32).MemoryInv ∧ (rich 5#32 0#32 0#32 7#32).ArenaInv ∧
    (rich 5#32 0#32 0#32 7#32).ncnt.toNat ≤ (rich 5#32 0#32 0#32 7#32).a0.toNat ∧
    (rich 4#32 0#32 0#32 4092#32).MemoryInv ∧ (rich 4#32 0#32 0#32 4092#32).ArenaInv ∧
    ¬ (rich 4#32 0#32 0#32 4092#32).ncnt.toNat ≤ (rich 4#32 0#32 0#32 4092#32).a0.toNat ∧
    4096 < 4092 + (encNode exampleNodes.length exampleNodes 4).length ∧
    ¬ 4096 < 4091 + (encNode exampleNodes.length exampleNodes 4).length :=
  ⟨rich_memory _ _ _ _, rich_arena _ _ _ _, by decide, rich_memory _ _ _ _, rich_arena _ _ _ _, by decide, by decide,
    by decide⟩

theorem witness_ArenaWalksMeetEquations : (rich 0#32 0#32 0#32 7#32).ArenaInv ∧
    (rich 0#32 0#32 0#32 7#32).nodes[1]? = some ⟨⟨4#28, 2#2, false⟩, 1, .prim [0xAA#8], some 0⟩ :=
  ⟨rich_arena _ _ _ _, by decide⟩

/-- No such node; an A2 with no node; an A2 under another parent; a search from the start and one after a child. -/
theorem witness_TlvfindFindsFirstMatch : (rich 5#32 0#32 noneWord 7#32).ArenaInv ∧
    (rich 5#32 0#32 noneWord 7#32).ncnt.toNat ≤ (rich 5#32 0#32 noneWord 7#32).a0.toNat ∧
    (rich 0#32 0#32 5#32 7#32).ArenaInv ∧ (5#32 : Word) ≠ 0xFFFFFFFF#32 ∧
    (rich 0#32 0#32 5#32 7#32).ncnt.toNat ≤ (rich 0#32 0#32 5#32 7#32).a2.toNat ∧
    (rich 0#32 0#32 3#32 7#32).ArenaInv ∧ parentOf exampleNodes 3 ≠ some 0 ∧
    (rich 0#32 0x20000005#32 noneWord 7#32).ArenaInv ∧ tagAt exampleNodes 2 = some (tagNamed 0x20000005#32) ∧
    (rich 0#32 0x80000000#32 2#32 7#32).ArenaInv ∧ parentOf exampleNodes 2 = some 0 :=
  ⟨rich_arena _ _ _ _, by decide, rich_arena _ _ _ _, by decide, by decide, rich_arena _ _ _ _, by decide,
    rich_arena _ _ _ _, by decide, rich_arena _ _ _ _, by decide⟩

/-- Two roots under `DEPTH_MAX` = 1. -/
def shallow : State := { State.resetWith { Config.standard with depthMax := 1 } with
  nodes := [⟨⟨16#28, 0#2, true⟩, 0, .cons [], none⟩, ⟨⟨4#28, 0#2, false⟩, 0, .prim [], none⟩]
  ncnt := 2#32, a1 := 1#32 }

theorem shallow_arena : shallow.ArenaInv := ⟨(Config.wf_iff _).1 (by decide), by decide, by decide, by decide, by decide,
  by decide, by decide, by decide, by decide, by simp [shallow, sizeSum], by decide, by decide⟩

/-- No such node; a primitive parent; a child with a parent; a child that is the root; too deep; as deep as may be. -/
theorem witness_TlvappendLinksChild :
    (rich 4#32 5#32 0#32 7#32).ArenaInv ∧ (rich 4#32 5#32 0#32 7#32).ncnt.toNat ≤ 5 ∧
    (rich 4#32 3#32 0#32 7#32).ArenaInv ∧ (tagAt exampleNodes 4).map (·.constructed) = some false ∧
    (rich 3#32 1#32 0#32 7#32).ArenaInv ∧ (tagAt exampleNodes 3).map (·.constructed) = some true ∧
    parentOf exampleNodes 1 ≠ none ∧
    (rich 0#32 0#32 0#32 7#32).ArenaInv ∧ 0 = rootOf exampleNodes 0 ∧
    shallow.ArenaInv ∧ shallow.cfg.depthMax < depthOf shallow.nodes 0 + heightOf shallow.nodes 1 ∧
    parentOf shallow.nodes 1 = none ∧ 1 ≠ rootOf shallow.nodes 0 ∧
    (richIn tight 3#32 4#32 0#32 7#32).ArenaInv ∧ ¬ tight.depthMax < depthOf exampleNodes 3 + heightOf exampleNodes 4 ∧
    parentOf exampleNodes 4 = none ∧ 4 ≠ rootOf exampleNodes 3 :=
  ⟨rich_arena _ _ _ _, by decide, rich_arena _ _ _ _, by decide, rich_arena _ _ _ _, by decide, by decide,
    rich_arena _ _ _ _, by decide, shallow_arena, by decide, by decide, by decide, tight_arena _ _ _ _, by decide,
    by decide, by decide⟩

/-- TLVNEWP: a constructed tag; octets past TLEN; no node left; no value octet left; all just fitting. -/
theorem witness_NewNodesAreRoots_prim :
    (rich 0x40000000#32 0#32 0#32 7#32).ArenaInv ∧ 2 ^ 30 ≤ (rich 0x40000000#32 0#32 0#32 7#32).a0.toNat ∧
    (rich 0x3FFFFFFF#32 7#32 1#32 7#32).ArenaInv ∧ ¬ 2 ^ 30 ≤ (rich 0x3FFFFFFF#32 7#32 1#32 7#32).a0.toNat ∧
    (rich 0x3FFFFFFF#32 7#32 1#32 7#32).tlen.toNat < 7 + 1 ∧
    (richIn tight 4#32 7#32 0#32 7#32).ArenaInv ∧ (richIn tight 4#32 7#32 0#32 7#32).ncnt.toNat = tight.nodeCap ∧
    (rich 4#32 0#32 7#32 7#32).ArenaInv ∧ ¬ (rich 4#32 0#32 7#32 7#32).tlen.toNat < 0 + 7 ∧
    (rich 4#32 0#32 4093#32 4096#32).ArenaInv ∧
    Config.standard.valCap < (rich 4#32 0#32 4093#32 4096#32).vused.toNat + 4093 ∧
    ¬ Config.standard.valCap < (rich 4#32 0#32 4092#32 4096#32).vused.toNat + 4092 :=
  ⟨rich_arena _ _ _ _, by decide, rich_arena _ _ _ _, by decide, by decide, tight_arena _ _ _ _, by decide,
    rich_arena _ _ _ _, by decide, rich_arena _ _ _ _, by decide, by decide⟩

/-- TLVNEWC: a primitive tag; the wildcard; no node left; the lowest constructed tag. -/
theorem witness_NewNodesAreRoots_cons :
    (rich 0x3FFFFFFF#32 0#32 0#32 7#32).ArenaInv ∧ (rich 0x3FFFFFFF#32 0#32 0#32 7#32).a0.toNat < 2 ^ 30 ∧
    2 ^ 31 ≤ (rich 0x80000000#32 0#32 0#32 7#32).a0.toNat ∧
    (richIn tight 0x40000000#32 0#32 0#32 7#32).ArenaInv ∧
    (richIn tight 0x40000000#32 0#32 0#32 7#32).ncnt.toNat = tight.nodeCap ∧
    (rich 0x40000000#32 0#32 0#32 7#32).ArenaInv ∧
    ¬ (2 ^ 31 ≤ (rich 0x40000000#32 0#32 0#32 7#32).a0.toNat ∨ (rich 0x40000000#32 0#32 0#32 7#32).a0.toNat < 2 ^ 30) ∧
    (rich 0x40000000#32 0#32 0#32 7#32).ncnt.toNat ≠ Config.standard.nodeCap :=
  ⟨rich_arena _ _ _ _, by decide, by decide, tight_arena _ _ _ _, by decide, rich_arena _ _ _ _, by decide, by decide⟩

/-- No such node; a constructed node; octets past TLEN; no value octet left; all just fitting. -/
theorem witness_TlvsetvReplacesValue :
    (rich 5#32 0#32 0#32 7#32).ArenaInv ∧ (rich 5#32 0#32 0#32 7#32).ncnt.toNat ≤ 5 ∧
    (rich 3#32 0#32 0#32 7#32).ArenaInv ∧ (tagAt exampleNodes 3).map (·.constructed) = some true ∧
    (rich 1#32 4#32 4#32 7#32).ArenaInv ∧ (tagAt exampleNodes 1).map (·.constructed) = some false ∧
    (rich 1#32 4#32 4#32 7#32).tlen.toNat < 4 + 4 ∧
    (richIn tight 1#32 0#32 2#32 7#32).ArenaInv ∧ lengthAt exampleNodes 1 = some 1 ∧
    tight.valCap < (richIn tight 1#32 0#32 2#32 7#32).vused.toNat - 1 + 2 ∧
    (richIn tight 1#32 6#32 1#32 7#32).ArenaInv ∧ ¬ tight.valCap < (richIn tight 1#32 6#32 1#32 7#32).vused.toNat - 1 + 1 ∧
    ¬ (richIn tight 1#32 6#32 1#32 7#32).tlen.toNat < 6 + 1 :=
  ⟨rich_arena _ _ _ _, by decide, rich_arena _ _ _ _, by decide, rich_arena _ _ _ _, by decide, by decide,
    tight_arena _ _ _ _, by decide, by decide, tight_arena _ _ _ _, by decide, by decide⟩

theorem witness_TlvgetReadsAttributes :
    (rich 5#32 0#32 0#32 7#32).ArenaInv ∧ (rich 5#32 0#32 0#32 7#32).ncnt.toNat ≤ (rich 5#32 0#32 0#32 7#32).a0.toNat ∧
    (rich 4#32 0#32 0#32 7#32).ArenaInv ∧ (rich 4#32 0#32 0#32 7#32).nodes[(rich 4#32 0#32 0#32 7#32).a0.toNat]? =
      some ⟨⟨4#28, 0#2, false⟩, 3, .prim [1#8, 2#8, 3#8], none⟩ :=
  ⟨rich_arena _ _ _ _, by decide, rich_arena _ _ _ _, by decide⟩

/-- No such node; a constructed node; one octet too many; the last octet that fits. -/
theorem witness_TlvgetvAppendsValue :
    (rich 5#32 0#32 0#32 7#32).MemoryInv ∧ (rich 5#32 0#32 0#32 7#32).ArenaInv ∧
    (rich 5#32 0#32 0#32 7#32).ncnt.toNat ≤ (rich 5#32 0#32 0#32 7#32).a0.toNat ∧
    (tagAt exampleNodes 0).map (·.constructed) = some true ∧ (tagAt exampleNodes 4).map (·.constructed) = some false ∧
    (rich 4#32 0#32 0#32 4094#32).MemoryInv ∧ (rich 4#32 0#32 0#32 4094#32).ArenaInv ∧
    4096 < 4094 + ((valueAt exampleNodes 4).getD []).length ∧ ¬ 4096 < 4093 + ((valueAt exampleNodes 4).getD []).length :=
  ⟨rich_memory _ _ _ _, rich_arena _ _ _ _, by decide, by decide, by decide, rich_memory _ _ _ _, rich_arena _ _ _ _,
    by decide, by decide⟩

/-- DLEN and EDCMODE as given. -/
def sending (a0 a1 a2 : Word) (dlen : BitVec 16) (mode : BitVec 1) : State :=
  { rich a0 a1 a2 7#32 with dlen := dlen, edcMode := mode }

theorem sending_memory (a0 a1 a2 : Word) (dlen : BitVec 16) (mode : BitVec 1) : (sending a0 a1 a2 dlen mode).MemoryInv :=
  (rich_memory a0 a1 a2 7#32).congr rfl rfl rfl rfl rfl rfl

/-- CRC mode; 255 octets; 254 octets. -/
theorem witness_T1mkiBuildsFrame : (sending 0#32 0#32 0#32 0#16 1#1).MemoryInv ∧
    (sending 0#32 0#32 0#32 0#16 1#1).edcMode = 1#1 ∧ (sending 0#32 0#32 0#32 255#16 0#1).MemoryInv ∧
    254 < (sending 0#32 0#32 0#32 255#16 0#1).dlen.toNat ∧
    (sending 0#32 0#32 0#32 254#16 0#1).MemoryInv ∧ (sending 0#32 0#32 0#32 254#16 0#1).edcMode ≠ 1#1 ∧
    ¬ 254 < (sending 0#32 0#32 0#32 254#16 0#1).dlen.toNat :=
  ⟨sending_memory _ _ _ _ _, by decide, sending_memory _ _ _ _ _, by decide, sending_memory _ _ _ _ _, by decide,
    by decide⟩

/-- CRC mode; the error code 3; the error code 2. -/
theorem witness_T1mkrBuildsFrame : (sending 0#32 0#32 3#32 0#16 1#1).MemoryInv ∧
    (sending 0#32 0#32 3#32 0#16 1#1).edcMode = 1#1 ∧ (sending 0#32 0#32 3#32 0#16 0#1).MemoryInv ∧
    2 < (sending 0#32 0#32 3#32 0#16 0#1).a2.toNat ∧ (sending 0#32 0#32 2#32 0#16 0#1).MemoryInv ∧
    (sending 0#32 0#32 2#32 0#16 0#1).edcMode ≠ 1#1 ∧ ¬ 2 < (sending 0#32 0#32 2#32 0#16 0#1).a2.toNat :=
  ⟨sending_memory _ _ _ _ _, by decide, sending_memory _ _ _ _ _, by decide, sending_memory _ _ _ _ _, by decide,
    by decide⟩

/-- CRC mode; a code outside the table; 255 octets; the last code of the table with 254 octets. -/
theorem witness_T1mksBuildsFrame : (sending 0#32 4#32 0#32 255#16 1#1).MemoryInv ∧
    (sending 0#32 4#32 0#32 255#16 1#1).edcMode = 1#1 ∧ (sending 0#32 4#32 0#32 255#16 0#1).MemoryInv ∧
    BitVec.ofNat 6 ((sending 0#32 4#32 0#32 255#16 0#1).a1.toNat % 64) ∉ SCode.standard.codes ∧
    (sending 0#32 0x64#32 0#32 255#16 0#1).MemoryInv ∧
    BitVec.ofNat 6 ((sending 0#32 0x64#32 0#32 255#16 0#1).a1.toNat % 64) ∈ SCode.standard.codes ∧
    254 < (sending 0#32 0x64#32 0#32 255#16 0#1).dlen.toNat ∧ (sending 0#32 0x64#32 0#32 254#16 0#1).MemoryInv ∧
    ¬ 254 < (sending 0#32 0x64#32 0#32 254#16 0#1).dlen.toNat :=
  ⟨sending_memory _ _ _ _ _, by decide, sending_memory _ _ _ _ _, by decide, sending_memory _ _ _ _ _, by decide, by decide,
    sending_memory _ _ _ _ _, by decide⟩

/-- A frame of FLEN octets in FB, and EDCMODE. -/
def receiving (fb : Memory) (flen : BitVec 16) (mode : BitVec 1) : State :=
  { rich 0#32 0#32 0#32 7#32 with fb := fb, flen := flen, edcMode := mode }

/-- CRC mode; three octets; LEN = 255; a wrong EDC; the shortest good frame. -/
theorem witness_T1parseVerifiesFrame : (receiving [] 0#16 1#1).MemoryInv ∧ (receiving [] 0#16 1#1).edcMode = 1#1 ∧
    (receiving [] 3#16 0#1).MemoryInv ∧ (receiving [] 3#16 0#1).flen.toNat < 4 ∧
    (receiving [(2, 0xFF#8)] 259#16 0#1).MemoryInv ∧ ((receiving [(2, 0xFF#8)] 259#16 0#1).fb.read 2).toNat = 255 ∧
    (receiving [(3, 1#8)] 4#16 0#1).MemoryInv ∧
    xorAll ((octetsAt (receiving [(3, 1#8)] 4#16 0#1).fb.read 0 4).take 3) ≠ (receiving [(3, 1#8)] 4#16 0#1).fb.read 3 ∧
    (receiving [(1, 1#8), (3, 1#8)] 4#16 0#1).MemoryInv ∧
    xorAll ((octetsAt (receiving [(1, 1#8), (3, 1#8)] 4#16 0#1).fb.read 0 4).take 3) =
      (receiving [(1, 1#8), (3, 1#8)] 4#16 0#1).fb.read 3 :=
  ⟨⟨by decide, by decide, by decide, by decide, by decide, by decide, by decide, by decide, by decide, by decide⟩,
    by decide,
    ⟨by decide, by decide, by decide, by decide, by decide, by decide, by decide, by decide, by decide, by decide⟩,
    by decide,
    ⟨by decide, by decide, by decide, by decide, by decide, by decide, by decide, by decide, by decide, by decide⟩,
    by decide,
    ⟨by decide, by decide, by decide, by decide, by decide, by decide, by decide, by decide, by decide, by decide⟩,
    by decide,
    ⟨by decide, by decide, by decide, by decide, by decide, by decide, by decide, by decide, by decide, by decide⟩,
    by decide⟩

theorem witness_T1edcComputesLrc : 259 < (rich 260#32 0#32 0#32 7#32).a0.toNat ∧
    ¬ 259 < (rich 259#32 0#32 0#32 7#32).a0.toNat := by decide

theorem witness_T1openCompletes :
    let s := { State.reset with inputs := [.line (.ok [0x00#8, 0xE0#8, 0x00#8, 0xE0#8]),
      .line (.ok [0x00#8, 0xE1#8, 0x01#8, 0xFE#8, 0x1E#8])] }
    s.cfg.scode.WellFormed ∧ s.edcMode = 0#1 ∧ 1 ≤ s.cfg.openAttempts ∧ 1 ≤ s.cfg.retryBudget ∧
    s.inputs = .line (.ok [0x00#8, 0xE0#8, 0x00#8, 0xE0#8]) ::
      .line (.ok [0x00#8, 0xE1#8, 0x01#8, 0xFE#8, 0x1E#8]) :: [] ∧
    t1Parse 0#1 [0x00#8, 0xE0#8, 0x00#8, 0xE0#8] = .ok ⟨0x00#8, 0xE0#8, 0x00#8, [], 0xE0#8⟩ ∧
    0xE0#8 = 0xC0#8 ||| s.cfg.scode.resynchResponse.setWidth 8 ∧
    t1Parse 0#1 [0x00#8, 0xE1#8, 0x01#8, 0xFE#8, 0x1E#8] = .ok ⟨0x00#8, 0xE1#8, 0x01#8, [0xFE#8], 0x1E#8⟩ ∧
    0xE1#8 = 0xC0#8 ||| s.cfg.scode.ifsResponse.setWidth 8 := by decide

/-- CRC mode, and LRC mode. -/
theorem witness_T1openFollowsAttempts : State.reset.cfg.scode.WellFormed ∧ State.reset.work = none ∧
    State.reset.edcMode = 0#1 ∧ (sending 0#32 0#32 0#32 0#16 1#1).cfg.scode.WellFormed ∧
    (sending 0#32 0#32 0#32 0#16 1#1).work = none ∧ (sending 0#32 0#32 0#32 0#16 1#1).edcMode = 1#1 := by decide

/-- DLEN = IFS. -/
theorem witness_T1xmitCompletes :
    let s := { sending 0#32 0#32 0#32 32#16 0#1 with inputs := [.line (.ok goodI)] }
    s.MemoryInv ∧ s.edcMode = 0#1 ∧ s.dlen.toNat ≤ s.ifs.toNat ∧ s.dlen.toNat ≤ 254 ∧ 1 ≤ s.cfg.retryBudget ∧
    s.inputs = .line (.ok goodI) :: [] ∧
    t1Parse 0#1 goodI = .ok ⟨0x00#8, 0x00#8, 0x02#8, [0x90#8, 0x00#8], 0x92#8⟩ ∧ (0x00#8).toNat < 0x80 :=
  ⟨(sending_memory 0#32 0#32 0#32 32#16 0#1).congr rfl rfl rfl rfl rfl rfl, by decide, by decide, by decide, by decide,
    by decide, by decide, by decide⟩

/-- DLEN = IFS + 1; CRC mode; DLEN = IFS = 255; DLEN = IFS. -/
theorem witness_T1xmitFollowsRecursion : SCode.standard.WellFormed ∧ (sending 0#32 0#32 0#32 33#16 0#1).work = none ∧
    (sending 0#32 0#32 0#32 33#16 0#1).ifs.toNat < (sending 0#32 0#32 0#32 33#16 0#1).dlen.toNat ∧
    (sending 0#32 0#32 0#32 32#16 1#1).edcMode = 1#1 ∧
    ({ sending 0#32 0#32 0#32 255#16 0#1 with ifs := 255#8 } : State).ifs.toNat = 255 ∧
    254 < (sending 0#32 0#32 0#32 255#16 0#1).dlen.toNat ∧
    ¬ (sending 0#32 0#32 0#32 32#16 0#1).ifs.toNat < (sending 0#32 0#32 0#32 32#16 0#1).dlen.toNat := by decide

theorem witness_PcbIEndsTransmit : (waiting (xmitting 3 goodI) []).MemoryInv ∧
    (waiting (xmitting 3 goodI) []).work = some (xmitting 3 goodI) ∧ (xmitting 3 goodI).job = .xmit :=
  ⟨waiting_memory _ _, by decide, by decide⟩

/-- A slot that holds a frame, with two retries and with one; an empty slot. -/
theorem witness_PcbRResendsSlot :
    let s := fun r => { waiting (xmitting r goodI) [] with ls0 := Memory.writeRange [] 0 sentI, ls0len := 8#16 }
    (s 2).work = some (xmitting 2 goodI) ∧ (s 2).ls0len ≠ 0#16 ∧ 2 ≤ (xmitting 2 goodI).retries ∧
    (s 2).ls1len = 0#16 ∧ (xmitting 2 goodI).job = .xmit ∧
    (s 1).work = some (xmitting 1 goodI) ∧ (s 1).ls0len ≠ 0#16 ∧ (xmitting 1 goodI).retries = 1 := by decide

/-- A WTX_REQUEST with one data octet, with two retries and with one. -/
theorem witness_PcbWtxIsAnswered :
    let rx := [0x00#8, 0xC3#8, 0x01#8, 0x05#8, 0xC7#8]
    (waiting (xmitting 2 rx) []).work = some (xmitting 2 rx) ∧ GoodFrame (xmitting 2 rx).rx ∧
    2 ≤ (xmitting 2 rx).retries ∧ (waiting (xmitting 1 rx) []).work = some (xmitting 1 rx) ∧
    (xmitting 1 rx).retries = 1 ∧ (xmitting 1 rx).job = .xmit := by decide

theorem witness_PcbResponsesAdvanceOpen :
    let rx := [0x00#8, 0xE1#8, 0x01#8, 0xFE#8, 0x1E#8]
    (waiting (resynching 1 []) []).work = some (resynching 1 []) ∧ (resynching 1 []).job = .opening 1 .resynch ∧
    (resynching 1 []).out.getD 1 0#8 = 0xC0#8 ||| SCode.standard.resynchRequest.setWidth 8 ∧
    1 ≤ (waiting (resynching 1 []) []).cfg.retryBudget ∧
    (waiting (negotiating 1 rx) []).work = some (negotiating 1 rx) ∧ (negotiating 1 rx).job = .opening 1 .ifs ∧
    (negotiating 1 rx).out.getD 1 0#8 = 0xC0#8 ||| SCode.standard.ifsRequest.setWidth 8 ∧
    GoodFrame (negotiating 1 rx).rx ∧ (negotiating 1 rx).rx.length = 5 := by decide

/-- Under `retry_same` with two retries and with one, and under `fail`; a response whose request is not outbound. -/
theorem witness_PcbUnknownRepeats :
    let failing := { waiting (xmitting 1 []) [] with cfg := { Config.standard with unknownReply := .fail } }
    (waiting (xmitting 2 []) []).work = some (xmitting 2 []) ∧
    (waiting (xmitting 2 []) []).cfg.unknownReply = .retrySame ∧ 2 ≤ (xmitting 2 []).retries ∧
    (waiting (xmitting 1 []) []).work = some (xmitting 1 []) ∧ (xmitting 1 []).retries = 1 ∧
    (xmitting 1 []).job = .xmit ∧ failing.work = some (xmitting 1 []) ∧ failing.cfg.unknownReply = .fail ∧
    (xmitting 2 []).out.getD 1 0#8 ≠ 0xC0#8 ||| SCode.standard.resynchRequest.setWidth 8 ∧
    (xmitting 2 []).out.getD 1 0#8 ≠ 0xC0#8 ||| SCode.standard.ifsRequest.setWidth 8 := by decide

theorem witness_EdcFailureSendsRBlock : (waiting (xmitting 2 []) [.line (.ok badEdc)]).MemoryInv ∧
    (waiting (xmitting 2 []) [.line (.ok badEdc)]).work = some (xmitting 2 []) ∧ 2 ≤ (xmitting 2 []).retries ∧
    (waiting (xmitting 2 []) [.line (.ok badEdc)]).inputs = .line (.ok badEdc) :: [] ∧
    t1Parse 0#1 (badEdc.take 259) = .error .edcError :=
  ⟨waiting_memory _ _, by decide, by decide, by decide, by decide⟩

/-- A failure of the LINE to T1XMIT, and an empty answer to the last attempt of T1OPEN. -/
theorem witness_LineFailureIsFatal :
    (waiting (xmitting 3 []) [.line .fail]).work = some (xmitting 3 []) ∧
    (waiting (xmitting 3 []) [.line .fail]).inputs = .line .fail :: [] ∧ (xmitting 3 []).job = .xmit ∧
    (waiting (resynching 3 []) [.line (.ok [])]).work = some (resynching 3 []) ∧
    (waiting (resynching 3 []) [.line (.ok [])]).inputs = .line (.ok []) :: [] ∧
    t1Parse 0#1 (([] : List Byte).take 259) = .error .lengthMismatch ∧
    (resynching 3 []).job = .opening (waiting (resynching 3 []) [.line (.ok [])]).cfg.openAttempts .resynch := by decide

theorem witness_RetryBound :
    let s := fun es => { sending 0#32 0#32 0#32 32#16 0#1 with inputs := es }
    let bad : Input := .line (.ok badEdc)
    (s [bad, bad, bad]).MemoryInv ∧ (s []).work = none ∧ (s []).edcMode = 0#1 ∧ (s []).dlen.toNat ≤ (s []).ifs.toNat ∧
    (s []).dlen.toNat ≤ 254 ∧ (s []).cfg.retryBudget = 3 ∧ t1Parse 0#1 (badEdc.take 259) = .error .edcError ∧
    (s [bad, bad, bad]).inputs = bad :: bad :: bad :: [] ∧ (s [bad]).inputs = [bad] ∧
    (s [bad, bad]).inputs = [bad, bad] ∧ (s []).inputs = [] ∧
    exec .t1xmit (s []) = .next (after .t1xmit (s [])) ∧ exec .t1open (s []) = .next (after .t1open (s [])) :=
  ⟨(sending_memory 0#32 0#32 0#32 32#16 0#1).congr rfl rfl rfl rfl rfl rfl, by decide, by decide, by decide, by decide,
    by decide, by decide, rfl, rfl, rfl, rfl, rfl, rfl⟩

/-- A started command, as `StepRunsDecodedCommand` leaves it. -/
def started (a0 : Word) : State := { rich a0 0#32 0#32 7#32 with status := 1#32 }

theorem witness_CommandsEndOrWait : (Instr.tlvget).format = .cmd ∧ (started 5#32).status = 1#32 ∧
    (started 5#32).err = 0#8 ∧ (started 5#32).subErr = 0#8 ∧ (started 5#32).work = none ∧
    exec .tlvget (started 5#32) = .next (after .tlvget (started 5#32)) ∧
    exec .t1open (started 5#32) = .next (after .t1open (started 5#32)) :=
  ⟨rfl, rfl, rfl, rfl, rfl, rfl, rfl⟩

theorem witness_TransactionalErrorsChangeNothing : Instr.tlvget ∈ transactional ∧
    exec .tlvget (started 5#32) = .next (after .tlvget (started 5#32)) ∧
    (after .tlvget (started 5#32)).status ≠ 2#32 :=
  ⟨by decide, rfl, by decide⟩

theorem witness_ProtocolErrorsKeepResults :
    let s := { started 0#32 with inputs := [.line .fail] }
    exec .t1xmit s = .next (after .t1xmit s) ∧ (after .t1xmit s).status ≠ 2#32 ∧ (after .t1xmit s).err = 0x23#8 :=
  ⟨rfl, by decide, by decide⟩

theorem witness_HalvesShareNoState : Instr.tlvser ∈ tlvHalf ∧ Instr.t1xmit ∈ t1Half ∧
    (Instr.pcbR 0#1 0#1 0#4).format = .pcb ∧
    exec .tlvser (started 0#32) = .next (after .tlvser (started 0#32)) ∧
    exec .t1xmit (started 0#32) = .next (after .t1xmit (started 0#32)) :=
  ⟨by decide, by decide, rfl, rfl, rfl⟩

theorem witness_CommandsKeepHostRegisters : Instr.t1xmit ≠ .srst ∧
    exec .t1xmit (started 0#32) = .next (after .t1xmit (started 0#32)) := ⟨by decide, rfl⟩

theorem witness_TagAndLengthInverse : 0xFFFFFFFF < 2 ^ 32 := by decide

/-- A parse that has room, and one that is ArenaFull. -/
theorem witness_ParseAfterSerialize : (rich 0#32 0#32 0#32 7#32).MemoryInv ∧ (rich 0#32 0#32 0#32 7#32).ArenaInv ∧
    exec .tlvser (rich 0#32 0#32 0#32 7#32) = .next (after .tlvser (rich 0#32 0#32 0#32 7#32)) ∧
    (after .tlvser (rich 0#32 0#32 0#32 7#32)).status = 2#32 ∧
    (after .tlvparseat { after .tlvser (rich 0#32 0#32 0#32 7#32) with a0 := 7#32 }).status = 2#32 ∧
    (richIn tight 0#32 0#32 0#32 7#32).MemoryInv ∧ (richIn tight 0#32 0#32 0#32 7#32).ArenaInv ∧
    (after .tlvparseat { after .tlvser (richIn tight 0#32 0#32 0#32 7#32) with a0 := 7#32 }).err = 0x46#8 :=
  ⟨rich_memory _ _ _ _, rich_arena _ _ _ _, rfl, by decide, by decide, tight_memory _ _ _ _, tight_arena _ _ _ _,
    by decide⟩

theorem witness_LrcDetectsSingleBit : GoodFrame sentI ∧ 7 < 8 ∧ 7 < sentI.length ∧ 3 < sentI.length ∧ 3 ≠ 7 := by decide

theorem witness_ResetMeetsInvariants : tight.WellFormed := tight_wf

theorem rich_status (a0 a1 a2 tlen : Word) : (rich a0 a1 a2 tlen).StatusInv :=
  (show (rich 0#32 0#32 0#32 0#32).StatusInv from ⟨by decide, by decide, by decide, by decide, by decide⟩).congr
    rfl rfl rfl rfl

theorem commanding_counts (v : Word) : (commanding v).CountInv :=
  (show (commanding 0#32).CountInv from ⟨by decide, by decide, by decide, by decide⟩).congr rfl rfl rfl rfl rfl

theorem witness_StepKeepsMemory : (commanding 0x22#32).MemoryInv ∧ (commanding 0x22#32).CountInv ∧
    step (commanding 0x22#32) = .next (stepped (commanding 0x22#32)) :=
  ⟨(rich_memory 0#32 0#32 0#32 7#32).congr rfl rfl rfl rfl rfl rfl, commanding_counts _, rfl⟩

theorem witness_StepKeepsStatus : (commanding 0x41#32).StatusInv ∧
    step (commanding 0x41#32) = .next (stepped (commanding 0x41#32)) :=
  ⟨(rich_status 0#32 0#32 0#32 7#32).congr rfl rfl rfl rfl, rfl⟩

theorem witness_StepKeepsProtocol : (waiting (xmitting 3 []) [.line (.ok badEdc)]).StatusInv ∧
    (waiting (xmitting 3 []) [.line (.ok badEdc)]).ProtocolInv ∧
    step (waiting (xmitting 3 []) [.line (.ok badEdc)]) =
      .next (stepped (waiting (xmitting 3 []) [.line (.ok badEdc)])) :=
  ⟨waiting_status _ _, ⟨by decide, waiting_memory _ _, ⟨by decide, by decide, by decide, by decide⟩, by decide,
    by decide, by decide, by decide, by simp [waiting, xmitting]⟩, rfl⟩

theorem witness_StepKeepsArena : (commanding 0x2A#32).ArenaInv ∧
    step (commanding 0x2A#32) = .next (stepped (commanding 0x2A#32)) :=
  ⟨(rich_arena 0#32 0#32 0#32 7#32).congr rfl rfl rfl rfl, rfl⟩

theorem witness_AnswersOneByOne : (rich 0#32 0#32 0#32 7#32).busy = false ∧ (rich 0#32 0#32 0#32 7#32).work = none := by
  decide

/-- A T1XMIT with its three answers, one after a HOST access, and a T1OPEN with its eighteen: the least that
`ExchangesReturn` asks for. -/
theorem witness_CommandsEndIfExchangesReturn_started :
    let xmit := [.line (.ok badEdc), .host (.readReg 1), .line .fail, .line (.ok goodI)]
    let opened := List.replicate 18 (.line (.ok badEdc))
    let s := fun es => { rich 0#32 0#32 0#32 7#32 with inputs := es }
    (s []).busy = false ∧ (s []).work = none ∧
    (s (.host (.writeReg 0 0x41#32) :: xmit)).inputs = .host (.writeReg 0 0x41#32) :: xmit ∧
    decodeCommand ((0x41#32).setWidth 8) = .ok .t1xmit ∧ decodeCommand ((0x40#32).setWidth 8) = .ok .t1open ∧
    ExchangesReturn (exchangesOf (s []).cfg .t1xmit) xmit ∧
    ExchangesReturn (exchangesOf (s []).cfg .t1open) opened :=
  ⟨rfl, rfl, rfl, rfl, rfl, ⟨by decide, by decide⟩, ⟨by decide, by decide⟩⟩

/-- A T1XMIT at its last retry with one answer; the same with HOST accesses alone, and with the hardware reset. -/
theorem witness_CommandsEndIfExchangesReturn_waiting :
    let w := xmitting 1 []
    let one := [.host (.writeReg 0 0#32), .line .fail]
    let quiet := [.host (.writeReg 0 0#32), .host (.readByte .tb 0)]
    (waiting w one).busy = true ∧ (waiting w one).work = some w ∧
    ExchangesReturn (w.exchangesLeft (waiting w one).cfg) (waiting w one).inputs ∧
    (∀ e ∈ (waiting w quiet).inputs, ∃ a, e = .host a) ∧ (waiting w [.hardReset]).inputs = .hardReset :: [] :=
  ⟨rfl, rfl, ⟨by decide, by decide⟩, by simp [waiting], rfl⟩

theorem witness_CommandsEndIfExchangesReturn_others : Instr.tlvget.format = .cmd ∧ Instr.tlvget ≠ .t1open ∧
    Instr.tlvget ≠ .t1xmit ∧ (started 5#32).work = none := ⟨rfl, by decide, by decide, rfl⟩

end Sys2Proof.Tests
end

section
/-! SUPPORT. Paths up the arena: the list of ids from a node to its root, which `climbs`, `pathUp`, `depthOf` and
`rootOf` all speak of (10_state R39, 41_tlv_unit R149). -/

namespace Sys2Proof.Machine

/-- `l` holds the ids from `x` along `parent` up to its root. -/
inductive IsPath (ns : List Node) : Nat → List Nat → Prop where
  | root {x : Nat} : x < ns.length → parentOf ns x = none → IsPath ns x [x]
  | step {x p : Nat} {l : List Nat} : parentOf ns x = some p → IsPath ns p l → IsPath ns x (x :: l)

theorem parentOf_of_getElem? {ns : List Node} {x : Nat} {n : Node} (h : ns[x]? = some n) :
    parentOf ns x = n.parent := by simp [parentOf, h]

theorem childrenOf_of_getElem? {ns : List Node} {x : Nat} {n : Node} (h : ns[x]? = some n) :
    childrenOf ns x = n.children := by simp [childrenOf, h]

theorem sizeAt_of_getElem? {ns : List Node} {x : Nat} {n : Node} (h : ns[x]? = some n) :
    sizeAt ns x = n.size := by simp [sizeAt, h]

theorem lt_length_of_parentOf {ns : List Node} {x p : Nat} (h : parentOf ns x = some p) : x < ns.length := by
  by_contra hx
  simp [parentOf, List.getElem?_eq_none (Nat.le_of_not_lt hx)] at h

theorem lt_length_of_mem_childrenOf {ns : List Node} {x c : Nat} (h : c ∈ childrenOf ns x) : x < ns.length := by
  by_contra hx
  simp [childrenOf, List.getElem?_eq_none (Nat.le_of_not_lt hx)] at h

/-- Only a constructed node has a child. -/
theorem isCons_of_mem_children {n : Node} {c : Nat} (h : c ∈ n.children) : n.body.isCons = true := by
  cases hb : n.body with
  | prim v => simp [Node.children, hb] at h
  | cons kids => rfl

theorem IsPath.lt_length {ns : List Node} {x : Nat} {l : List Nat} (h : IsPath ns x l) : x < ns.length := by
  cases h with
  | root hx _ => exact hx
  | step hp _ => exact lt_length_of_parentOf hp

/-- A path begins with the node it is the path of. -/
theorem IsPath.head {ns : List Node} {x y : Nat} {l : List Nat} (h : IsPath ns x (y :: l)) : y = x := by
  cases h <;> rfl

theorem IsPath.ne_nil {ns : List Node} {x : Nat} {l : List Nat} (h : IsPath ns x l) : l ≠ [] := by
  cases h <;> simp

theorem IsPath.unique {ns : List Node} {x : Nat} {l m : List Nat} (hl : IsPath ns x l) (hm : IsPath ns x m) :
    l = m := by
  induction hl generalizing m with
  | root _ hr =>
    cases hm with
    | root => rfl
    | step hp _ => rw [hr] at hp; cases hp
  | step hp _ ih =>
    cases hm with
    | root _ hr => rw [hr] at hp; cases hp
    | step hq hm => rw [hp] at hq; cases hq; rw [ih hm]

/-- From any node of a path on, the rest of it is that node's path. -/
theorem IsPath.suffix {ns : List Node} {a b : List Nat} {x z : Nat} (h : IsPath ns x (a ++ z :: b)) :
    IsPath ns z (z :: b) := by
  induction a generalizing x with
  | nil => exact h.head ▸ h
  | cons y a ih =>
    generalize hl : y :: a ++ z :: b = l at h
    cases h with
    | root => simp at hl
    | step _ h =>
      rw [List.cons_append, List.cons.injEq] at hl
      exact ih (hl.2 ▸ h)

/-- Each id of a path is the parent of the one before. -/
theorem IsPath.parentOf_eq {ns : List Node} {a b : List Nat} {x d z : Nat} (h : IsPath ns x (a ++ d :: z :: b)) :
    parentOf ns d = some z := by
  cases h.suffix with
  | step hp h => rw [hp, h.head]

/-- A path meets no node twice. -/
theorem IsPath.nodup {ns : List Node} {x : Nat} {l : List Nat} (h : IsPath ns x l) : l.Nodup := by
  induction h with
  | root => simp
  | @step x p l hp h ih =>
    refine List.nodup_cons.2 ⟨fun hx => ?_, ih⟩
    obtain ⟨a, b, rfl⟩ := List.append_of_mem hx
    have hlen := congrArg List.length (h.suffix.unique (.step hp h))
    simp at hlen
    omega

/-- No node is its own parent. -/
theorem IsPath.parentOf_ne_self {ns : List Node} {x : Nat} {l : List Nat} (h : IsPath ns x l) :
    parentOf ns x ≠ some x := by
  intro hx
  have := (IsPath.step hx h).nodup
  cases h <;> simp at this

theorem IsPath.mem_lt {ns : List Node} {x y : Nat} {l : List Nat} (h : IsPath ns x l) (hy : y ∈ l) :
    y < ns.length := by
  obtain ⟨a, b, rfl⟩ := List.append_of_mem hy
  exact h.suffix.lt_length

/-- A path has no more ids than the arena has nodes, so no walk reaches the bound of log entry 12. -/
theorem IsPath.length_le {ns : List Node} {x : Nat} {l : List Nat} (h : IsPath ns x l) : l.length ≤ ns.length := by
  have hsub : l ⊆ List.range ns.length := fun y hy => List.mem_range.2 (h.mem_lt hy)
  simpa using (h.nodup.subperm hsub).length_le

theorem IsPath.pathUp_eq {ns : List Node} {x k : Nat} {l : List Nat} (h : IsPath ns x l) (hk : l.length ≤ k) :
    pathUp k ns x = l := by
  induction h generalizing k with
  | root _ hr =>
    obtain ⟨k, rfl⟩ := Nat.exists_eq_add_of_le' hk
    simp [pathUp, hr]
  | step hp _ ih =>
    obtain ⟨k, rfl⟩ := Nat.exists_eq_add_of_le' (Nat.le_trans (Nat.le_add_left 1 _) hk)
    simp only [List.length_cons, Nat.add_le_add_iff_right] at hk
    simp [pathUp, hp, ih hk]

theorem IsPath.depthOf_eq {ns : List Node} {x : Nat} {l : List Nat} (h : IsPath ns x l) :
    depthOf ns x = l.length := by
  rw [depthOf, h.pathUp_eq h.length_le]

/-- A root on the path of `x` is the root of `x`. -/
theorem IsPath.rootOf_eq {ns : List Node} {x r : Nat} {l : List Nat} (h : IsPath ns x l) (hr : parentOf ns r = none)
    (hmem : r ∈ l) : rootOf ns x = r := by
  obtain ⟨a, b, rfl⟩ := List.append_of_mem hmem
  rw [rootOf, h.pathUp_eq h.length_le]
  cases h.suffix with
  | root => simp
  | step hp _ => rw [hr] at hp; cases hp

theorem climbs_succ {ns : List Node} {k x : Nat} :
    climbs (k + 1) ns x = true ↔ x < ns.length ∧ ∀ p, parentOf ns x = some p → climbs k ns p = true := by
  by_cases hx : x < ns.length
  · have hget := List.getElem?_eq_getElem hx
    rw [parentOf_of_getElem? hget]
    simp only [climbs, hget, hx, true_and]
    cases ns[x].parent <;> simp
  · simp [climbs, hx]

/-- `climbs k` says that the path up exists and has at most `k` ids. -/
theorem climbs_iff {ns : List Node} {k x : Nat} :
    climbs k ns x = true ↔ ∃ l, IsPath ns x l ∧ l.length ≤ k := by
  induction k generalizing x with
  | zero => simpa [climbs] using fun h => h.ne_nil rfl
  | succ k ih =>
    rw [climbs_succ]
    constructor
    · rintro ⟨hx, hup⟩
      cases hp : parentOf ns x with
      | none => exact ⟨[x], .root hx hp, by simp⟩
      | some p =>
        obtain ⟨l, hl, hk⟩ := ih.1 (hup p hp)
        exact ⟨x :: l, .step hp hl, by simpa using hk⟩
    · rintro ⟨l, hl, hk⟩
      refine ⟨hl.lt_length, fun p hp => ih.2 ?_⟩
      cases hl with
      | root _ hr => rw [hr] at hp; cases hp
      | step hq hl => rw [hp] at hq; cases hq; exact ⟨_, hl, by simpa using hk⟩

/-- A path is read off the parents of its own nodes alone. -/
theorem IsPath.congr {ns ns' : List Node} {x : Nat} {l : List Nat} (h : IsPath ns x l)
    (hlen : ns.length ≤ ns'.length) (hpar : ∀ y ∈ l, parentOf ns' y = parentOf ns y) : IsPath ns' x l := by
  induction h with
  | root hx hr => exact .root (by omega) (by rw [hpar _ List.mem_cons_self, hr])
  | step hp _ ih =>
    exact .step (by rw [hpar _ List.mem_cons_self, hp]) (ih fun y hy => hpar y (List.mem_cons_of_mem _ hy))

end Sys2Proof.Machine
end

section
/-! SUPPORT. The columns of the arena (tags, links, sizes, values), the links of 10_state R39(b), (e), and the lengths
of R39(c): what changing one node and `relength` do to each. -/

namespace Sys2Proof.Machine

/-! ### Columns -/

/-- A constructed node holds no value octets. -/
theorem Node.value_of_isCons {n : Node} (h : n.body.isCons = true) : n.value = [] := by
  cases hb : n.body with
  | prim v => simp [Body.isCons, hb] at h
  | cons kids => simp [Node.value, hb]

theorem parentOf_eq (ns : List Node) (x : Nat) : parentOf ns x = (ns[x]?.map Node.parent).join := by
  cases hx : ns[x]? <;> simp [parentOf, hx]

theorem childrenOf_eq (ns : List Node) (x : Nat) : childrenOf ns x = (ns[x]?.map Node.children).getD [] := by
  cases hx : ns[x]? <;> simp [childrenOf, hx]

theorem sizeAt_eq (ns : List Node) (x : Nat) : sizeAt ns x = (ns[x]?.map Node.size).getD 0 := by
  cases hx : ns[x]? <;> simp [sizeAt, hx]

theorem parentOf_of_column {ns ns' : List Node} (h : ns'.map Node.parent = ns.map Node.parent) :
    parentOf ns' = parentOf ns := by
  funext x
  rw [parentOf_eq, parentOf_eq, ← List.getElem?_map, ← List.getElem?_map, h]

theorem childrenOf_of_column {ns ns' : List Node} (h : ns'.map Node.children = ns.map Node.children) :
    childrenOf ns' = childrenOf ns := by
  funext x
  rw [childrenOf_eq, childrenOf_eq, ← List.getElem?_map, ← List.getElem?_map, h]

theorem sizeAt_of_column {ns ns' : List Node} (h : ns'.map Node.size = ns.map Node.size) :
    sizeAt ns' = sizeAt ns := by
  funext x
  rw [sizeAt_eq, sizeAt_eq, ← List.getElem?_map, ← List.getElem?_map, h]

/-- A change of one node keeps every column in which it keeps that node's entry. -/
theorem map_updateNode {α : Type} (g : Node → α) {ns : List Node} {x : Nat} {f : Node → Node}
    (h : ∀ n, ns[x]? = some n → g (f n) = g n) : (updateNode ns x f).map g = ns.map g := by
  refine List.ext_getElem? fun y => ?_
  rw [List.getElem?_map, List.getElem?_map, getElem?_updateNode]
  split
  · subst_vars
    cases hy : ns[y]? with
    | none => rfl
    | some n => simp [h n hy]
  · rfl

/-- The sum of a column after a change of one node. -/
theorem sum_map_updateNode (g : Node → Nat) {ns : List Node} {x : Nat} {n : Node} {f : Node → Node}
    (h : ns[x]? = some n) : ((updateNode ns x f).map g).sum + g n = (ns.map g).sum + g (f n) := by
  obtain ⟨hx, rfl⟩ := List.getElem?_eq_some_iff.1 h
  have hsplit : ns = ns.take x ++ ns[x] :: ns.drop (x + 1) := by simp
  have hset : updateNode ns x f = ns.take x ++ f ns[x] :: ns.drop (x + 1) := by
    simp only [updateNode, h]
    rw [List.set_eq_take_append_cons_drop, if_pos hx]
  have hsum := congrArg (fun ms => (ms.map g).sum) hsplit
  simp only [List.map_append, List.map_cons, List.sum_append, List.sum_cons] at hsum
  rw [hset, hsum]
  simp only [List.map_append, List.map_cons, List.sum_append, List.sum_cons]
  omega

/-- `relength` keeps every column that does not show lengths (41_tlv_unit R148). -/
theorem map_relength {α : Type} (g : Node → α) (hg : ∀ n, g n.shape = g n) (ns : List Node) (x : Nat) :
    (relength ns x).map g = ns.map g := by
  have hshape : (relength ns x).map Node.shape = ns.map Node.shape :=
    List.ext_getElem? fun y => by simpa using shape_relength ns x y
  have hg' : g ∘ Node.shape = g := funext hg
  simpa [hg'] using congrArg (List.map g) hshape

theorem parentOf_relengthAt (ns : List Node) (x : Nat) : parentOf (relengthAt ns x) = parentOf ns := by
  refine parentOf_of_column (map_updateNode _ fun n _ => ?_)
  cases n.body <;> rfl

theorem childrenOf_relengthAt (ns : List Node) (x : Nat) : childrenOf (relengthAt ns x) = childrenOf ns := by
  refine childrenOf_of_column (map_updateNode _ fun n _ => ?_)
  cases hb : n.body <;> simp [Node.children, hb]

theorem parentOf_relength (ns : List Node) (x : Nat) : parentOf (relength ns x) = parentOf ns :=
  parentOf_of_column (map_relength _ (fun _ => rfl) ns x)

theorem childrenOf_relength (ns : List Node) (x : Nat) : childrenOf (relength ns x) = childrenOf ns :=
  childrenOf_of_column (map_relength _ (fun _ => rfl) ns x)

/-- The body kind of a node, and the one its tag asks for. -/
def Node.kinds (n : Node) : Bool × Bool := (n.body.isCons, n.tag.constructed)

/-- Arenas with the same body kinds and tags meet 10_state R39(a) alike. -/
theorem kind_of_column {ns ns' : List Node} (h : ns'.map Node.kinds = ns.map Node.kinds)
    (hk : ∀ n ∈ ns, n.body.isCons = n.tag.constructed) : ∀ n ∈ ns', n.body.isCons = n.tag.constructed := by
  intro n hn
  have hmem := List.mem_map_of_mem (f := Node.kinds) hn
  rw [h, List.mem_map] at hmem
  obtain ⟨m, hm, heq⟩ := hmem
  simp only [Node.kinds, Prod.mk.injEq] at heq
  rw [← heq.1, ← heq.2, hk m hm]

/-! ### Links -/

/-- The arena is a forest of ordered trees of depth at most `d` (10_state R39(b), (e)). -/
structure Linked (d : Nat) (ns : List Node) : Prop where
  agree : ∀ p c, c ∈ childrenOf ns p ↔ parentOf ns c = some p
  nodup : ∀ x, (childrenOf ns x).Nodup
  paths : ∀ x < ns.length, ∃ l, IsPath ns x l ∧ l.length ≤ d

theorem Linked.congr {d : Nat} {ns ns' : List Node} (h : Linked d ns) (hlen : ns'.length = ns.length)
    (hp : parentOf ns' = parentOf ns) (hc : childrenOf ns' = childrenOf ns) : Linked d ns' where
  agree p c := by rw [hp, hc]; exact h.agree p c
  nodup x := by rw [hc]; exact h.nodup x
  paths x hx := by
    obtain ⟨l, hl, hd⟩ := h.paths x (hlen ▸ hx)
    exact ⟨l, hl.congr hlen.ge fun y _ => by rw [hp], hd⟩

theorem Linked.relength {d : Nat} {ns : List Node} (h : Linked d ns) (x : Nat) : Linked d (relength ns x) :=
  h.congr (by simp) (parentOf_relength ns x) (childrenOf_relength ns x)

/-- Both ends of a link name nodes. -/
theorem Linked.parent_lt {d : Nat} {ns : List Node} (h : Linked d ns) {x p : Nat} (hp : parentOf ns x = some p) :
    p < ns.length := lt_length_of_mem_childrenOf ((h.agree p x).2 hp)

/-! ### Lengths -/

/-- The length that 10_state R39(c) gives a node of the arena. -/
def Node.contentSize (ns : List Node) (n : Node) : Nat :=
  match n.body with
  | .prim v => v.length
  | .cons kids => sizeSum ns kids

/-- The node with id `x`, if any, has the length of 10_state R39(c). -/
def RightAt (ns : List Node) (x : Nat) : Prop := ∀ n, ns[x]? = some n → n.length = n.contentSize ns

theorem lengthsRight_iff {ns : List Node} : LengthsRight ns ↔ ∀ x, RightAt ns x := by
  constructor
  · exact fun h x n hn => h n (List.mem_of_getElem? hn)
  · intro h n hn
    obtain ⟨x, hx⟩ := List.getElem?_of_mem hn
    exact h x n hx

/-- The length of a primitive node is that of its value (10_state R39(c)). -/
theorem length_value_of_prim {ns : List Node} {x : Nat} {n : Node} (hr : LengthsRight ns) (hn : ns[x]? = some n)
    (hb : n.body.isCons = false) : n.value.length = n.length := by
  rw [lengthsRight_iff.1 hr x n hn]
  cases hk : n.body with
  | prim v => simp [Node.value, Node.contentSize, hk]
  | cons kids => simp [Body.isCons, hk] at hb

theorem sizeSum_congr {ns ns' : List Node} {xs : List Nat} (h : ∀ c ∈ xs, sizeAt ns' c = sizeAt ns c) :
    sizeSum ns' xs = sizeSum ns xs := congrArg List.sum (List.map_congr_left h)

theorem contentSize_congr {ns ns' : List Node} {n : Node} (h : ∀ c ∈ n.children, sizeAt ns' c = sizeAt ns c) :
    n.contentSize ns' = n.contentSize ns := by
  unfold Node.contentSize
  cases hb : n.body with
  | prim v => rfl
  | cons kids =>
    simp only [Node.children, hb] at h
    exact sizeSum_congr h

/-- A node's length stays right while its own length and body and its children's sizes stay. -/
theorem RightAt.congr {ns ns' : List Node} {x : Nat} (h : RightAt ns x)
    (hx : (ns'[x]?).map (fun n => (n.length, n.body)) = (ns[x]?).map fun n => (n.length, n.body))
    (hs : ∀ c ∈ childrenOf ns x, sizeAt ns' c = sizeAt ns c) : RightAt ns' x := by
  intro n' hn'
  rw [hn'] at hx
  cases hn : ns[x]? with
  | none => simp [hn] at hx
  | some n =>
    simp only [hn, Option.map_some, Option.some.injEq, Prod.mk.injEq] at hx
    obtain ⟨hl, hb⟩ := hx
    rw [childrenOf_of_getElem? hn] at hs
    calc n'.length = n.contentSize ns := by rw [hl, h n hn]
      _ = n.contentSize ns' := (contentSize_congr hs).symm
      _ = n'.contentSize ns' := by simp only [Node.contentSize, hb]

/-- A change of one node touches the length of no other node but its parent. -/
theorem RightAt.updateNode_of_ne {ns : List Node} {x y : Nat} {f : Node → Node} (h : RightAt ns y) (hne : y ≠ x)
    (hx : x ∉ childrenOf ns y) : RightAt (updateNode ns x f) y := by
  refine h.congr (by rw [getElem?_updateNode, if_neg hne]) fun c hc => ?_
  have : c ≠ x := fun hcx => hx (hcx ▸ hc)
  simp only [sizeAt, getElem?_updateNode, if_neg this]

/-- One level of `relength` puts the node right, if it is constructed and no child of its own. -/
theorem rightAt_relengthAt {ns : List Node} {x : Nat} {n : Node} (hn : ns[x]? = some n) (hb : n.body.isCons = true)
    (hx : x ∉ n.children) : RightAt (relengthAt ns x) x := by
  cases hk : n.body with
  | prim v => simp [Body.isCons, hk] at hb
  | cons kids =>
    intro m hm
    rw [relengthAt_cons hn hk] at hm
    cases hm
    simp only [Node.children, hk] at hx
    simp only [Node.contentSize, hk]
    refine (sizeSum_congr fun c hc => ?_).symm
    have : c ≠ x := fun hcx => hx (hcx ▸ hc)
    simp only [relengthAt, sizeAt, getElem?_updateNode, if_neg this]

/-- `relength` along a path: when only its first node may have a wrong length, each level passes the fault on to the
parent, and the root has none (41_tlv_unit R148). -/
theorem lengthsRight_foldl_relengthAt {d : Nat} {ns : List Node} {x : Nat} {l : List Nat} (hl : IsPath ns x l)
    (h : Linked d ns) (hx : ∀ n, ns[x]? = some n → n.body.isCons = true) (hr : ∀ y, y ≠ x → RightAt ns y) :
    LengthsRight (l.foldl relengthAt ns) := by
  induction l generalizing ns x with
  | nil => exact absurd rfl hl.ne_nil
  | cons z l ih =>
    obtain rfl := hl.head
    have hlen := length_relengthAt ns z
    have hpar := parentOf_relengthAt ns z
    have hchi := childrenOf_relengthAt ns z
    have hlink : Linked d (relengthAt ns z) := h.congr hlen hpar hchi
    have hget := List.getElem?_eq_getElem hl.lt_length
    have hself : RightAt (relengthAt ns z) z := by
      refine rightAt_relengthAt hget (hx _ hget) fun hz => hl.parentOf_ne_self ((h.agree z z).1 ?_)
      rwa [childrenOf_of_getElem? hget]
    have hother : ∀ y, y ≠ z → parentOf ns z ≠ some y → RightAt (relengthAt ns z) y := fun y hy hp =>
      (hr y hy).updateNode_of_ne hy fun hz => hp ((h.agree y z).1 hz)
    have hstep : ∀ y, parentOf ns z ≠ some y → RightAt (relengthAt ns z) y := fun y hp => by
      by_cases hy : y = z
      · exact hy ▸ hself
      · exact hother y hy hp
    rw [List.foldl_cons]
    cases hl with
    | root _ hroot => exact lengthsRight_iff.2 fun y => hstep y (by simp [hroot])
    | @step _ p _ hp hl =>
      refine ih (hl.congr hlen.ge fun y _ => by rw [hpar]) hlink (fun n hn => ?_) fun y hy =>
        hstep y (by simp [hp, Ne.symm hy])
      refine isCons_of_mem_children (c := z) ?_
      rw [← childrenOf_of_getElem? hn, hchi]
      exact (h.agree p z).2 hp

/-- `relength` at a constructed node that alone may have a wrong length leaves every length right. -/
theorem lengthsRight_relength {d : Nat} {ns : List Node} {x : Nat} (h : Linked d ns) (hlt : x < ns.length)
    (hx : ∀ n, ns[x]? = some n → n.body.isCons = true) (hr : ∀ y, y ≠ x → RightAt ns y) :
    LengthsRight (relength ns x) := by
  obtain ⟨l, hl, -⟩ := h.paths x hlt
  rw [relength, hl.pathUp_eq hl.length_le]
  exact lengthsRight_foldl_relengthAt hl h hx hr

end Sys2Proof.Machine
end

section
/-! SUPPORT. What TLVAPPEND and TLVSETV make of the arena (41_tlv_unit R149, R152). -/

namespace Sys2Proof.Machine

/-! ### A new link -/

/-- Below a node `z` lies no path segment longer than its height (41_tlv_unit R149). -/
theorem length_le_heightTo {d : Nat} {ns : List Node} (h : Linked d ns) {a b : List Nat} {x z k : Nat}
    (hl : IsPath ns x (a ++ z :: b)) (hk : a.length + 1 ≤ k) : a.length + 1 ≤ heightTo k ns z := by
  induction a using List.reverseRecOn generalizing z b k with
  | nil =>
    obtain ⟨k, rfl⟩ := Nat.exists_eq_add_of_le' hk
    simp only [List.length_nil, Nat.zero_add, heightTo]
    split <;> omega
  | append_singleton a c ih =>
    obtain ⟨k, rfl⟩ := Nat.exists_eq_add_of_le' (Nat.le_trans (Nat.le_add_left 1 _) hk)
    rw [List.length_append, List.length_singleton] at hk ⊢
    rw [List.append_assoc, List.singleton_append] at hl
    have hc : c ∈ childrenOf ns z := (h.agree z c).2 hl.parentOf_eq
    have hz := lt_length_of_mem_childrenOf hc
    have hget := List.getElem?_eq_getElem hz
    rw [childrenOf_of_getElem? hget] at hc
    have hmax : heightTo k ns c ≤ (ns[z].children.map fun c => heightTo k ns c).foldr max 0 :=
      List.le_max_of_le (List.mem_map_of_mem hc) le_rfl
    have := ih hl (Nat.le_of_succ_le_succ hk)
    simp only [heightTo, hget]
    omega

/-- `ns'` is `ns` with the root `c` as a further child of `p`. -/
structure NewLink (ns ns' : List Node) (p c : Nat) : Prop where
  length : ns'.length = ns.length
  parent : ∀ y, parentOf ns' y = if y = c then some p else parentOf ns y
  children : ∀ y, childrenOf ns' y = if y = p then childrenOf ns p ++ [c] else childrenOf ns y

/-- The paths after a new link: a path that ended at `c` goes on with that of `p`. -/
theorem NewLink.isPath {ns ns' : List Node} {p c y : Nat} {l lp : List Nat} (h : NewLink ns ns' p c)
    (hp : IsPath ns' p lp) (hc : parentOf ns c = none) (hl : IsPath ns y l) :
    IsPath ns' y (if c ∈ l then l ++ lp else l) := by
  induction hl with
  | @root x hx hr =>
    by_cases hxc : x = c
    · subst hxc
      simpa using IsPath.step (by rw [h.parent, if_pos rfl]) hp
    · simpa [Ne.symm hxc] using IsPath.root (h.length ▸ hx) (by rw [h.parent, if_neg hxc, hr])
  | @step x q l hq hl ih =>
    have hxc : x ≠ c := by rintro rfl; rw [hc] at hq; cases hq
    have := IsPath.step (by rw [h.parent, if_neg hxc, hq]) ih
    simpa [List.mem_cons, Ne.symm hxc, apply_ite] using this

/-- A new link from a root to a node of another tree, within the depth that TLVAPPEND tests, leaves a forest
(41_tlv_unit R149). -/
theorem NewLink.linked {d : Nat} {ns ns' : List Node} {p c : Nat} (hn : NewLink ns ns' p c) (h : Linked d ns)
    (hp : p < ns.length) (hc : parentOf ns c = none) (hroot : rootOf ns p ≠ c)
    (hd : depthOf ns p + heightOf ns c ≤ d) : Linked d ns' := by
  have hfree : ∀ x, c ∉ childrenOf ns x := fun x hx => by
    rw [(h.agree x c).1 hx] at hc
    cases hc
  obtain ⟨lp, hlp, -⟩ := h.paths p hp
  have hclp : c ∉ lp := fun hmem => hroot (hlp.rootOf_eq hc hmem)
  have hlp' : IsPath ns' p lp := hlp.congr hn.length.ge fun y hy => by
    rw [hn.parent, if_neg (ne_of_mem_of_not_mem hy hclp)]
  refine ⟨fun q x => ?_, fun x => ?_, fun x hx => ?_⟩
  · rw [hn.children, hn.parent]
    by_cases hxc : x = c
    · subst hxc
      by_cases hq : q = p
      · simp [hq]
      · simp [hq, hfree, Ne.symm hq]
    · by_cases hq : q = p
      · simp [hq, hxc, h.agree]
      · simp [hq, hxc, h.agree]
  · rw [hn.children]
    split
    · exact (h.nodup p).append (List.nodup_singleton c) (by simpa using hfree p)
    · exact h.nodup x
  · obtain ⟨l, hl, hld⟩ := h.paths x (hn.length ▸ hx)
    refine ⟨_, hn.isPath hlp' hc hl, ?_⟩
    split
    · rename_i hcl
      obtain ⟨a, b, rfl⟩ := List.append_of_mem hcl
      cases hl.suffix with
      | step hq _ => rw [hc] at hq; cases hq
      | root =>
        have hheight : a.length + 1 ≤ heightOf ns c := length_le_heightTo h hl (by simpa using hl.length_le)
        rw [hlp.depthOf_eq] at hd
        simp only [List.length_append, List.length_cons, List.length_nil]
        omega
    · exact hld

/-! ### TLVAPPEND -/

/-- The node with one more child, at the end. -/
def Node.withChild (c : Nat) (n : Node) : Node := { n with body := .cons (n.children ++ [c]) }

/-- The node under a parent. -/
def Node.withParent (p : Nat) (n : Node) : Node := { n with parent := some p }

/-- The arena after the link of TLVAPPEND, before `relength` (41_tlv_unit R149). -/
def linkChild (ns : List Node) (p c : Nat) : List Node :=
  updateNode (updateNode ns p (Node.withChild c)) c (Node.withParent p)

theorem appendChild_eq (ns : List Node) (p c : Nat) : appendChild ns p c = relength (linkChild ns p c) p := rfl

theorem parentOf_withChild (ns : List Node) (p c : Nat) :
    parentOf (updateNode ns p (Node.withChild c)) = parentOf ns :=
  parentOf_of_column (map_updateNode _ fun _ _ => rfl)

theorem childrenOf_withParent (ns : List Node) (p c : Nat) :
    childrenOf (updateNode ns c (Node.withParent p)) = childrenOf ns :=
  childrenOf_of_column (map_updateNode _ fun _ _ => rfl)

theorem parentOf_withParent {ns : List Node} {p c : Nat} (hc : c < ns.length) (y : Nat) :
    parentOf (updateNode ns c (Node.withParent p)) y = if y = c then some p else parentOf ns y := by
  rw [parentOf_eq, parentOf_eq, getElem?_updateNode]
  split
  · subst_vars
    simp [List.getElem?_eq_getElem hc, Node.withParent]
  · rfl

theorem childrenOf_withChild {ns : List Node} {p c : Nat} (hp : p < ns.length) (y : Nat) :
    childrenOf (updateNode ns p (Node.withChild c)) y =
      if y = p then childrenOf ns p ++ [c] else childrenOf ns y := by
  rw [childrenOf_eq, childrenOf_eq, childrenOf_eq, getElem?_updateNode]
  split
  · subst_vars
    simp [List.getElem?_eq_getElem hp, Node.withChild, Node.children]
  · rfl

theorem newLink_linkChild {ns : List Node} {p c : Nat} (hp : p < ns.length) (hc : c < ns.length) :
    NewLink ns (linkChild ns p c) p c where
  length := by simp [linkChild]
  parent y := by
    rw [linkChild, parentOf_withParent (by simpa using hc), parentOf_withChild]
  children y := by
    rw [linkChild, childrenOf_withParent, childrenOf_withChild hp]

/-- A column that shows neither parents nor, at `p`, the body stays under a new link. -/
theorem map_linkChild {α : Type} (g : Node → α) {ns : List Node} {p c : Nat}
    (hp : ∀ n, ns[p]? = some n → g (n.withChild c) = g n) (hc : ∀ n, g (n.withParent p) = g n) :
    (linkChild ns p c).map g = ns.map g := by
  rw [linkChild, map_updateNode g fun n _ => hc n, map_updateNode g hp]

/-- The new link makes no length wrong but that of `p`. -/
theorem rightAt_linkChild {ns : List Node} {p c y : Nat} (h : RightAt ns y) (hy : y ≠ p) :
    RightAt (linkChild ns p c) y := by
  refine h.congr ?_ fun x _ => ?_
  · rw [linkChild, getElem?_updateNode, getElem?_updateNode, if_neg hy]
    split
    · cases ns[y]? <;> rfl
    · rfl
  · rw [sizeAt_of_column (map_linkChild _ (fun _ _ => rfl) fun _ => rfl)]

@[simp] theorem length_appendChild (ns : List Node) (p c : Nat) : (appendChild ns p c).length = ns.length := by
  simp [appendChild_eq, linkChild]

/-- TLVAPPEND keeps every column that shows neither lengths nor parents nor, at `p`, the body. -/
theorem map_appendChild {α : Type} (g : Node → α) (hg : ∀ n, g n.shape = g n) {ns : List Node} {p c : Nat}
    (hp : ∀ n, ns[p]? = some n → g (n.withChild c) = g n) (hc : ∀ n, g (n.withParent p) = g n) :
    (appendChild ns p c).map g = ns.map g := by
  rw [appendChild_eq, map_relength g hg, map_linkChild g hp hc]

/-- TLVAPPEND changes no body kind and no tag. -/
theorem kinds_appendChild {ns : List Node} {p c : Nat} {n : Node} (hn : ns[p]? = some n)
    (hb : n.body.isCons = true) : (appendChild ns p c).map Node.kinds = ns.map Node.kinds := by
  refine map_appendChild _ (fun _ => rfl) (fun m hm => ?_) fun _ => rfl
  rw [hn] at hm
  cases hm
  exact Prod.ext hb.symm rfl

/-- TLVAPPEND changes no value. -/
theorem valueLengths_appendChild {ns : List Node} {p c : Nat} {n : Node} (hn : ns[p]? = some n)
    (hb : n.body.isCons = true) :
    ((appendChild ns p c).map fun m => m.value.length) = ns.map fun m => m.value.length := by
  refine map_appendChild _ (fun _ => rfl) (fun m hm => ?_) fun _ => rfl
  rw [hn] at hm
  cases hm
  rw [Node.value_of_isCons hb]
  rfl

/-- TLVAPPEND, past its tests, leaves a forest (41_tlv_unit R149). -/
theorem linked_appendChild {d : Nat} {ns : List Node} {p c : Nat} (h : Linked d ns) (hp : p < ns.length)
    (hclt : c < ns.length) (hc : parentOf ns c = none) (hroot : rootOf ns p ≠ c)
    (hd : depthOf ns p + heightOf ns c ≤ d) : Linked d (appendChild ns p c) :=
  ((newLink_linkChild hp hclt).linked h hp hc hroot hd).relength p

/-- TLVAPPEND, past its tests, leaves every length right (41_tlv_unit R148). -/
theorem lengthsRight_appendChild {d : Nat} {ns : List Node} {p c : Nat} (h : Linked d ns) (hp : p < ns.length)
    (hclt : c < ns.length) (hc : parentOf ns c = none) (hroot : rootOf ns p ≠ c)
    (hd : depthOf ns p + heightOf ns c ≤ d) (hr : LengthsRight ns) : LengthsRight (appendChild ns p c) := by
  have hlink := newLink_linkChild hp hclt
  rw [appendChild_eq]
  refine lengthsRight_relength (hlink.linked h hp hc hroot hd) (hlink.length ▸ hp) (fun n hn => ?_) fun y hy =>
    rightAt_linkChild (lengthsRight_iff.1 hr y) hy
  refine isCons_of_mem_children (c := c) ?_
  rw [← childrenOf_of_getElem? hn]
  simp [hlink.children]

/-! ### TLVSETV -/

/-- The node with a value, and its length. -/
def Node.withValue (v : List Byte) (n : Node) : Node := { n with body := .prim v, length := v.length }

theorem parentOf_withValue (ns : List Node) (x : Nat) (v : List Byte) :
    parentOf (updateNode ns x (Node.withValue v)) = parentOf ns :=
  parentOf_of_column (map_updateNode _ fun _ _ => rfl)

/-- TLVSETV writes the value and then restores the lengths from the parent up (41_tlv_unit R152). -/
theorem setValue_eq (ns : List Node) (x : Nat) (v : List Byte) :
    setValue ns x v = match parentOf ns x with
      | some p => relength (updateNode ns x (Node.withValue v)) p
      | none => updateNode ns x (Node.withValue v) := by
  rw [← parentOf_withValue ns x v]
  rfl

@[simp] theorem length_setValue (ns : List Node) (x : Nat) (v : List Byte) : (setValue ns x v).length = ns.length := by
  rw [setValue_eq]
  split <;> simp

/-- TLVSETV keeps every column that shows neither lengths nor, at `x`, the body. -/
theorem map_setValue {α : Type} (g : Node → α) (hg : ∀ n, g n.shape = g n) (ns : List Node) (x : Nat)
    (v : List Byte) : (setValue ns x v).map g = (updateNode ns x (Node.withValue v)).map g := by
  rw [setValue_eq]
  split
  · rw [map_relength g hg]
  · rfl

@[simp] theorem Node.value_withValue (n : Node) (v : List Byte) : (n.withValue v).value = v := rfl

/-- TLVSETV of a primitive node changes no body kind and no tag. -/
theorem kinds_setValue {ns : List Node} {x : Nat} {n : Node} (hn : ns[x]? = some n)
    (hb : n.body.isCons = false) (v : List Byte) : (setValue ns x v).map Node.kinds = ns.map Node.kinds := by
  rw [map_setValue _ fun _ => rfl]
  refine map_updateNode _ fun m hm => ?_
  rw [hn] at hm
  cases hm
  exact Prod.ext hb.symm rfl

/-- TLVSETV puts the new value's octets in place of the old one's. -/
theorem sum_value_setValue {ns : List Node} {x : Nat} {n : Node} (hn : ns[x]? = some n) (v : List Byte) :
    ((setValue ns x v).map fun m => m.value.length).sum + n.value.length =
      (ns.map fun m => m.value.length).sum + v.length := by
  rw [map_setValue (fun m => m.value.length) fun _ => rfl, sum_map_updateNode _ hn, Node.value_withValue]

/-- A primitive node has no children, before and after TLVSETV. -/
theorem children_withValue {ns : List Node} {x : Nat} {n : Node} (hn : ns[x]? = some n)
    (hb : n.body.isCons = false) (v : List Byte) :
    ∀ m, ns[x]? = some m → (m.withValue v).children = m.children := by
  intro m hm
  rw [hn] at hm
  cases hm
  cases hk : n.body with
  | prim w => simp [Node.children, Node.withValue, hk]
  | cons kids => simp [Body.isCons, hk] at hb

theorem linked_withValue {d : Nat} {ns : List Node} {x : Nat} {n : Node} (hn : ns[x]? = some n)
    (hb : n.body.isCons = false) (h : Linked d ns) (v : List Byte) :
    Linked d (updateNode ns x (Node.withValue v)) :=
  h.congr (by simp) (parentOf_withValue ns x v)
    (childrenOf_of_column (map_updateNode _ (children_withValue hn hb v)))

theorem linked_setValue {d : Nat} {ns : List Node} {x : Nat} {n : Node} (hn : ns[x]? = some n)
    (hb : n.body.isCons = false) (h : Linked d ns) (v : List Byte) : Linked d (setValue ns x v) := by
  rw [setValue_eq]
  split
  · exact (linked_withValue hn hb h v).relength _
  · exact linked_withValue hn hb h v

/-- The write of a value makes no length wrong but that of the parent. -/
theorem rightAt_withValue {d : Nat} {ns : List Node} {x : Nat} {n : Node} (hn : ns[x]? = some n)
    (h : Linked d ns) (hr : LengthsRight ns) (v : List Byte) {y : Nat}
    (hy : parentOf ns x ≠ some y) : RightAt (updateNode ns x (Node.withValue v)) y := by
  by_cases hyx : y = x
  · subst hyx
    intro m hm
    rw [getElem?_updateNode, if_pos rfl, hn] at hm
    cases hm
    rfl
  · exact (lengthsRight_iff.1 hr y).updateNode_of_ne hyx fun hx => hy ((h.agree y x).1 hx)

/-- TLVSETV of a primitive node leaves every length right (41_tlv_unit R148, R152). -/
theorem lengthsRight_setValue {d : Nat} {ns : List Node} {x : Nat} {n : Node} (hn : ns[x]? = some n)
    (hb : n.body.isCons = false) (h : Linked d ns) (hr : LengthsRight ns) (v : List Byte) :
    LengthsRight (setValue ns x v) := by
  have hlink := linked_withValue hn hb h v
  rw [setValue_eq]
  split
  · rename_i p hp
    refine lengthsRight_relength hlink (by simpa using h.parent_lt hp) (fun m hm => ?_) fun y hy =>
      rightAt_withValue hn h hr v (by simpa [hp] using Ne.symm hy)
    refine isCons_of_mem_children (c := x) ?_
    rw [← childrenOf_of_getElem? hm, hlink.agree, parentOf_withValue, hp]
  · rename_i hp
    exact lengthsRight_iff.2 fun y => rightAt_withValue hn h hr v (by simp [hp])

end Sys2Proof.Machine
end

section
/-! SUPPORT. A tree stored in the arena in pre-order: what `commit` appends, and that a parse gives trees the arena may
hold (41_tlv_unit R141, R142). -/

namespace Sys2Proof.Machine

mutual
/-- A tree whose body kinds follow its tags and whose height is at most `levels` (10_state R39(a), (e)); `Tree.fits`
without its bounds on the lengths, which R39 does not speak of. -/
def Tree.Shaped : Nat → Tree → Prop
  | 0, _ => False
  | _ + 1, .prim t _ => t.constructed = false
  | levels + 1, .cons t kids => t.constructed = true ∧ Tree.ShapedList levels kids
/-- All trees of a list are so. -/
def Tree.ShapedList : Nat → List Tree → Prop
  | _, [] => True
  | levels, t :: ts => Tree.Shaped levels t ∧ Tree.ShapedList levels ts
end

theorem shapedList_of_parseKids {levels : Nat} {p : List Byte → Except Err (Tree × List Byte)}
    (hp : ∀ w t rest, p w = .ok (t, rest) → t.Shaped levels) {fuel : Nat} {w : List Byte} {ts : List Tree}
    (h : parseKids p fuel w = .ok ts) : Tree.ShapedList levels ts := by
  induction ts generalizing fuel w with
  | nil => simp [Tree.ShapedList]
  | cons t ts ih =>
    rcases parseKids_ok h with ⟨-, hnil⟩ | ⟨k, t', w', ts', -, -, ht, hts, heq⟩
    · cases hnil
    · cases heq
      exact ⟨hp _ _ _ ht, ih hts⟩

/-- A parse with `levels` depths left gives a tree of that shape (41_tlv_unit R141). -/
theorem shaped_of_parseNode {levels : Nat} {w rest : List Byte} {t : Tree}
    (h : parseNode levels w = .ok (t, rest)) : t.Shaped levels := by
  induction levels generalizing w rest t with
  | zero => simp [parseNode] at h
  | succ k ih =>
    obtain ⟨k', tag, w1, l, w2, hk, -, -, -, -, hcase⟩ := parseNode_ok h
    cases hk
    rcases hcase with ⟨hc, ts, hts, rfl⟩ | ⟨hc, rfl⟩
    · exact ⟨hc, shapedList_of_parseKids (fun _ _ _ h => ih h) hts⟩
    · exact hc

/-- The record of the root of a tree (41_tlv_unit R142). -/
def Tree.record (x : Nat) (p : Option Nat) : Tree → Node
  | .prim t v => ⟨t, v.length, .prim v, p⟩
  | .cons t kids => ⟨t, Tree.sizeList kids, .cons (Tree.rootIds kids (x + 1)), p⟩

/-- The children of a tree. -/
def Tree.kids : Tree → List Tree
  | .prim _ _ => []
  | .cons _ kids => kids

@[simp] theorem Tree.record_parent (t : Tree) (x : Nat) (p : Option Nat) : (t.record x p).parent = p := by
  cases t <;> rfl

@[simp] theorem Tree.record_size (t : Tree) (x : Nat) (p : Option Nat) : (t.record x p).size = t.size := by
  cases t <;> rfl

@[simp] theorem Tree.record_children (t : Tree) (x : Nat) (p : Option Nat) :
    (t.record x p).children = Tree.rootIds t.kids (x + 1) := by
  cases t <;> rfl

theorem Tree.count_eq (t : Tree) : t.count = 1 + Tree.countList t.kids := by
  cases t <;> rfl

/-- A tree of some shape has a level to spare, and its children have the shape of the levels below. -/
theorem Tree.Shaped.kids {levels : Nat} {t : Tree} (h : t.Shaped levels) :
    ∃ k, levels = k + 1 ∧ Tree.ShapedList k t.kids := by
  cases levels with
  | zero => exact absurd h (by simp [Tree.Shaped])
  | succ k =>
    cases t with
    | prim tag v => exact ⟨k, rfl, trivial⟩
    | cons tag kids => exact ⟨k, rfl, h.2⟩

/-- The body kind of the record follows the tag (10_state R39(a)). -/
theorem Tree.isCons_record {levels : Nat} {t : Tree} (h : t.Shaped levels) (x : Nat) (p : Option Nat) :
    (t.record x p).body.isCons = (t.record x p).tag.constructed := by
  obtain ⟨k, rfl, -⟩ := h.kids
  cases t with
  | prim tag v => exact h.symm
  | cons tag kids => exact h.1.symm

mutual
/-- The tree stands in the arena in pre-order, its root at `x` under the parent `p` (41_tlv_unit R142). -/
def Tree.StoredAt (ns : List Node) : Tree → Nat → Option Nat → Prop
  | .prim t v, x, p => ns[x]? = some (Tree.record x p (.prim t v))
  | .cons t kids, x, p =>
    ns[x]? = some (Tree.record x p (.cons t kids)) ∧ Tree.StoredListAt ns kids (x + 1) (some x)
/-- The trees of a list stand one after the other from `x` on. -/
def Tree.StoredListAt (ns : List Node) : List Tree → Nat → Option Nat → Prop
  | [], _, _ => True
  | t :: ts, x, p => Tree.StoredAt ns t x p ∧ Tree.StoredListAt ns ts (x + t.count) p
end

theorem Tree.storedAt_iff {ns : List Node} {t : Tree} {x : Nat} {p : Option Nat} :
    t.StoredAt ns x p ↔ ns[x]? = some (t.record x p) ∧ Tree.StoredListAt ns t.kids (x + 1) (some x) := by
  cases t <;> simp [Tree.StoredAt, Tree.StoredListAt, Tree.kids]

mutual
/-- A tree's records stand where the arena holds them from `x` on. -/
theorem Tree.storedAt_of_drop {ns : List Node} : ∀ (t : Tree) {x : Nat} {p : Option Nat} {post : List Node},
    ns.drop x = t.records x p ++ post → t.StoredAt ns x p
  | .prim t v, x, p, post, h => by
    have hx := congrArg (fun ms => ms[0]?) h
    simpa [Tree.records, Tree.StoredAt, Tree.record] using hx
  | .cons t kids, x, p, post, h => by
    have hx := congrArg (fun ms => ms[0]?) h
    have hkids := congrArg (List.drop 1) h
    rw [List.drop_drop] at hkids
    exact ⟨by simpa [Tree.records, Tree.record] using hx,
      Tree.storedListAt_of_drop kids (by simpa [Tree.records] using hkids)⟩
/-- The same for a list of trees. -/
theorem Tree.storedListAt_of_drop {ns : List Node} : ∀ (ts : List Tree) {x : Nat} {p : Option Nat}
    {post : List Node}, ns.drop x = Tree.recordsList ts x p ++ post → Tree.StoredListAt ns ts x p
  | [], _, _, _, _ => trivial
  | t :: ts, x, p, post, h => by
    rw [Tree.recordsList, List.append_assoc] at h
    have hts := congrArg (List.drop t.count) h
    rw [List.drop_drop, ← t.length_records x p, List.drop_left, t.length_records] at hts
    exact ⟨Tree.storedAt_of_drop t h, Tree.storedListAt_of_drop ts hts⟩
end

/-! ### The roots of a list of trees -/

theorem le_of_mem_rootIds {ts : List Tree} {x c : Nat} (h : c ∈ Tree.rootIds ts x) : x ≤ c := by
  induction ts generalizing x with
  | nil => simp [Tree.rootIds] at h
  | cons t ts ih =>
    rcases List.mem_cons.1 h with rfl | h
    · exact Nat.le_refl _
    · have := ih h
      omega

theorem nodup_rootIds (ts : List Tree) (x : Nat) : (Tree.rootIds ts x).Nodup := by
  induction ts generalizing x with
  | nil => simp [Tree.rootIds]
  | cons t ts ih =>
    refine List.nodup_cons.2 ⟨fun h => ?_, ih _⟩
    have := le_of_mem_rootIds h
    have := t.count_eq
    omega

theorem storedAt_of_mem_rootIds {ns : List Node} {ts : List Tree} {x c : Nat} {p : Option Nat}
    (h : Tree.StoredListAt ns ts x p) (hc : c ∈ Tree.rootIds ts x) : ∃ t : Tree, t.StoredAt ns c p := by
  induction ts generalizing x with
  | nil => simp [Tree.rootIds] at hc
  | cons t ts ih =>
    rcases List.mem_cons.1 hc with rfl | hc
    · exact ⟨t, h.1⟩
    · exact ih h.2 hc

theorem sizeSum_rootIds {ns : List Node} {ts : List Tree} {x : Nat} {p : Option Nat}
    (h : Tree.StoredListAt ns ts x p) : sizeSum ns (Tree.rootIds ts x) = Tree.sizeList ts := by
  induction ts generalizing x with
  | nil => rfl
  | cons t ts ih =>
    have hx := sizeAt_of_getElem? (Tree.storedAt_iff.1 h.1).1
    have hts := ih h.2
    simp only [sizeSum] at hts
    simp [sizeSum, Tree.rootIds, Tree.sizeList, hx, hts]

/-! ### The node at which a tree is stored -/

section
variable {ns : List Node} {t : Tree} {x : Nat} {p : Option Nat}

theorem Tree.StoredAt.getElem? (h : t.StoredAt ns x p) : ns[x]? = some (t.record x p) :=
  (Tree.storedAt_iff.1 h).1

theorem Tree.StoredAt.kids (h : t.StoredAt ns x p) : Tree.StoredListAt ns t.kids (x + 1) (some x) :=
  (Tree.storedAt_iff.1 h).2

theorem Tree.StoredAt.parentOf_root (h : t.StoredAt ns x p) : parentOf ns x = p := by
  rw [parentOf_of_getElem? h.getElem?, Tree.record_parent]

theorem Tree.StoredAt.childrenOf_root (h : t.StoredAt ns x p) : childrenOf ns x = Tree.rootIds t.kids (x + 1) := by
  rw [childrenOf_of_getElem? h.getElem?, Tree.record_children]

/-- The children of a stored tree have its root as their parent. -/
theorem Tree.StoredAt.parentOf_child (h : t.StoredAt ns x p) {c : Nat} (hc : c ∈ childrenOf ns x) :
    parentOf ns c = some x := by
  rw [h.childrenOf_root] at hc
  obtain ⟨t', h'⟩ := storedAt_of_mem_rootIds h.kids hc
  exact h'.parentOf_root

theorem Tree.StoredAt.rightAt (h : t.StoredAt ns x p) : RightAt ns x := by
  intro n hn
  rw [h.getElem?] at hn
  cases hn
  cases t with
  | prim t v => rfl
  | cons t kids => exact (sizeSum_rootIds h.kids).symm

end

/-! ### A stored tree, node by node -/

/-- `p` is no node, or one whose path up has at most `e` ids. -/
def RootWithin (ns : List Node) (e : Nat) (p : Option Nat) : Prop :=
  ∀ q, p = some q → ∃ l, IsPath ns q l ∧ l.length ≤ e

/-- A tree stored under `p` whose body kinds follow its tags and whose nodes have at most the depth `b`. -/
def Tree.Hangs (ns : List Node) (b : Nat) (t : Tree) (x : Nat) (p : Option Nat) : Prop :=
  t.StoredAt ns x p ∧ ∃ e levels, e + levels = b ∧ t.Shaped levels ∧ RootWithin ns e p

/-- The same for a list of trees. -/
def Tree.HangsList (ns : List Node) (b : Nat) (ts : List Tree) (x : Nat) (p : Option Nat) : Prop :=
  Tree.StoredListAt ns ts x p ∧ ∃ e levels, e + levels = b ∧ Tree.ShapedList levels ts ∧ RootWithin ns e p

/-- The root of a stored tree is one deeper than its parent. -/
theorem Tree.StoredAt.rootWithin {ns : List Node} {t : Tree} {x e : Nat} {p : Option Nat} (h : t.StoredAt ns x p)
    (hp : RootWithin ns e p) : RootWithin ns (e + 1) (some x) := by
  rintro _ ⟨⟩
  have hx : x < ns.length := (List.getElem?_eq_some_iff.1 h.getElem?).1
  cases hpar : p with
  | none => exact ⟨[x], .root hx (h.parentOf_root.trans hpar), by simp⟩
  | some q =>
    obtain ⟨l, hl, hle⟩ := hp q hpar
    exact ⟨x :: l, .step (h.parentOf_root.trans hpar) hl, by simpa using hle⟩

/-- The children of a tree hang under its root. -/
theorem Tree.Hangs.kids {ns : List Node} {b x : Nat} {t : Tree} {p : Option Nat} (h : t.Hangs ns b x p) :
    Tree.HangsList ns b t.kids (x + 1) (some x) := by
  obtain ⟨hst, e, levels, hb, hsh, hp⟩ := h
  obtain ⟨k, rfl, hkids⟩ := hsh.kids
  exact ⟨hst.kids, e + 1, k, by omega, hkids, hst.rootWithin hp⟩

/-- The root of a tree that hangs within the depth `b` has a path of at most `b` ids. -/
theorem Tree.Hangs.path {ns : List Node} {b x : Nat} {t : Tree} {p : Option Nat} (h : t.Hangs ns b x p) :
    ∃ l, IsPath ns x l ∧ l.length ≤ b := by
  obtain ⟨-, e, levels, hb, -, hp⟩ := h.kids
  obtain ⟨l, hl, hle⟩ := hp x rfl
  exact ⟨l, hl, by omega⟩

theorem Tree.HangsList.head {ns : List Node} {b x : Nat} {t : Tree} {ts : List Tree} {p : Option Nat}
    (h : Tree.HangsList ns b (t :: ts) x p) : t.Hangs ns b x p := by
  obtain ⟨hst, e, levels, hb, hsh, hp⟩ := h
  exact ⟨hst.1, e, levels, hb, hsh.1, hp⟩

theorem Tree.HangsList.tail {ns : List Node} {b x : Nat} {t : Tree} {ts : List Tree} {p : Option Nat}
    (h : Tree.HangsList ns b (t :: ts) x p) : Tree.HangsList ns b ts (x + t.count) p := by
  obtain ⟨hst, e, levels, hb, hsh, hp⟩ := h
  exact ⟨hst.2, e, levels, hb, hsh.2, hp⟩

/-- A tree hangs at `y`, under a node that lists `y` as a child. -/
def HungAsChild (ns : List Node) (b y : Nat) : Prop :=
  ∃ (t : Tree) (q : Nat), t.Hangs ns b y (some q) ∧ y ∈ childrenOf ns q

mutual
/-- Every node of a tree that hangs, but its root, is the root of a tree that hangs as a child. -/
theorem Tree.Hangs.node {ns : List Node} {b : Nat} : ∀ (t : Tree) {x y : Nat} {p : Option Nat}, t.Hangs ns b x p →
    x ≤ y → y < x + t.count → y = x ∨ HungAsChild ns b y
  | .prim _ _, x, y, _, _, hxy, hy => .inl (by simp only [Tree.count] at hy; omega)
  | .cons tag kids, x, y, p, h, hxy, hy => by
    by_cases hyx : y = x
    · exact .inl hyx
    · simp only [Tree.count] at hy
      rcases Tree.HangsList.node kids h.kids (y := y) (by omega) (by omega) with ⟨hroot, t, ht⟩ | hchild
      · exact .inr ⟨t, x, ht, h.1.childrenOf_root ▸ hroot⟩
      · exact .inr hchild
/-- Every node of a list of trees that hang is a root, or the root of a tree that hangs as a child. -/
theorem Tree.HangsList.node {ns : List Node} {b : Nat} : ∀ (ts : List Tree) {x y : Nat} {p : Option Nat},
    Tree.HangsList ns b ts x p → x ≤ y → y < x + Tree.countList ts →
    (y ∈ Tree.rootIds ts x ∧ ∃ t : Tree, t.Hangs ns b y p) ∨ HungAsChild ns b y
  | [], x, y, _, _, hxy, hy => absurd hy (by simp only [Tree.countList]; omega)
  | t :: ts, x, y, p, h, hxy, hy => by
    simp only [Tree.countList] at hy
    by_cases hyt : y < x + t.count
    · rcases Tree.Hangs.node t h.head hxy hyt with rfl | hchild
      · exact .inl ⟨List.mem_cons_self, t, h.head⟩
      · exact .inr hchild
    · rcases Tree.HangsList.node ts h.tail (y := y) (by omega) (by omega) with ⟨hroot, ht⟩ | hchild
      · exact .inl ⟨List.mem_cons_of_mem _ hroot, ht⟩
      · exact .inr hchild
end

/-! ### Values -/

mutual
/-- The records of a tree hold its value octets (41_tlv_unit R142). -/
theorem Tree.sum_value_records : ∀ (t : Tree) (x : Nat) (p : Option Nat),
    ((t.records x p).map fun n => n.value.length).sum = t.valueBytes
  | .prim _ _, _, _ => by simp [Tree.records, Tree.valueBytes, Node.value]
  | .cons _ kids, x, _ => by
    rw [Tree.records, List.map_cons, List.sum_cons, Tree.sum_value_recordsList kids (x + 1) (some x)]
    exact Nat.zero_add _
/-- The same for a list of trees. -/
theorem Tree.sum_value_recordsList : ∀ (ts : List Tree) (x : Nat) (p : Option Nat),
    ((Tree.recordsList ts x p).map fun n => n.value.length).sum = Tree.valueBytesList ts
  | [], _, _ => rfl
  | t :: ts, x, p => by
    simp [Tree.recordsList, Tree.valueBytesList, Tree.sum_value_records t x p,
      Tree.sum_value_recordsList ts (x + t.count) p]
end

end Sys2Proof.Machine
end

section
/-! SUPPORT. The arena after a tree was stored behind its nodes (41_tlv_unit R142, R150, R151). -/

namespace Sys2Proof.Machine

/-- The arena with the records of one more tree. -/
def withTree (ns : List Node) (t : Tree) : List Node := ns ++ t.records ns.length none

@[simp] theorem length_withTree (ns : List Node) (t : Tree) : (withTree ns t).length = ns.length + t.count := by
  simp [withTree, t.length_records]

section
variable {ns : List Node} (t : Tree) {x : Nat} (hx : x < ns.length)
include hx

theorem getElem?_withTree : (withTree ns t)[x]? = ns[x]? := List.getElem?_append_left hx

theorem parentOf_withTree : parentOf (withTree ns t) x = parentOf ns x := by
  rw [parentOf_eq, getElem?_withTree t hx, parentOf_eq]

theorem childrenOf_withTree : childrenOf (withTree ns t) x = childrenOf ns x := by
  rw [childrenOf_eq, getElem?_withTree t hx, childrenOf_eq]

theorem sizeAt_withTree : sizeAt (withTree ns t) x = sizeAt ns x := by
  rw [sizeAt_eq, getElem?_withTree t hx, sizeAt_eq]

end

section
variable {d : Nat} {ns : List Node} {t : Tree}

theorem hangs_withTree (ht : t.Shaped d) : t.Hangs (withTree ns t) d ns.length none :=
  ⟨Tree.storedAt_of_drop t (post := []) (by simp [withTree]), 0, d, Nat.zero_add d, ht, fun _ h => nomatch h⟩

/-- A node of the new tree is its root, or stands under a node that lists it. -/
theorem node_withTree (ht : t.Shaped d) {y : Nat} (hy : ns.length ≤ y) (hlt : y < (withTree ns t).length) :
    y = ns.length ∨ HungAsChild (withTree ns t) d y :=
  (hangs_withTree ht).node t hy (by simpa using hlt)

/-- At every node of the new tree a tree hangs. -/
theorem exists_hangs_withTree (ht : t.Shaped d) {y : Nat} (hy : ns.length ≤ y) (hlt : y < (withTree ns t).length) :
    ∃ (t' : Tree) (p : Option Nat), t'.Hangs (withTree ns t) d y p := by
  rcases node_withTree ht hy hlt with rfl | ⟨t', q, h, -⟩
  · exact ⟨t, none, hangs_withTree ht⟩
  · exact ⟨t', some q, h⟩

/-- The new tree leaves a forest. -/
theorem linked_withTree (h : Linked d ns) (ht : t.Shaped d) : Linked d (withTree ns t) := by
  refine ⟨fun p c => ⟨fun hc => ?_, fun hp => ?_⟩, fun x => ?_, fun x hx => ?_⟩
  · by_cases hlt : p < ns.length
    · rw [childrenOf_withTree t hlt, h.agree] at hc
      rw [parentOf_withTree t (lt_length_of_parentOf hc), hc]
    · obtain ⟨t', q, hst, -⟩ := exists_hangs_withTree ht (Nat.le_of_not_lt hlt) (lt_length_of_mem_childrenOf hc)
      exact hst.parentOf_child hc
  · by_cases hlt : c < ns.length
    · rw [parentOf_withTree t hlt] at hp
      rw [childrenOf_withTree t (h.parent_lt hp), h.agree, hp]
    · rcases node_withTree ht (Nat.le_of_not_lt hlt) (lt_length_of_parentOf hp) with rfl | ⟨t', q, hst, hq⟩
      · rw [(hangs_withTree ht).1.parentOf_root] at hp
        cases hp
      · rw [hst.1.parentOf_root] at hp
        cases hp
        exact hq
  · by_cases hlt : x < ns.length
    · exact childrenOf_withTree t hlt ▸ h.nodup x
    · by_cases hin : x < (withTree ns t).length
      · obtain ⟨t', q, hst, -⟩ := exists_hangs_withTree ht (Nat.le_of_not_lt hlt) hin
        exact hst.childrenOf_root ▸ nodup_rootIds _ _
      · exact List.eq_nil_iff_forall_not_mem.2 (fun c hc => hin (lt_length_of_mem_childrenOf hc)) ▸ List.nodup_nil
  · by_cases hlt : x < ns.length
    · obtain ⟨l, hl, hd⟩ := h.paths x hlt
      exact ⟨l, hl.congr (by simp) fun y hy => parentOf_withTree t (hl.mem_lt hy), hd⟩
    · obtain ⟨t', q, hst⟩ := exists_hangs_withTree ht (Nat.le_of_not_lt hlt) hx
      exact hst.path

/-- The new tree's lengths are right, and so are the old ones (10_state R39(c)). -/
theorem lengthsRight_withTree (h : Linked d ns) (ht : t.Shaped d) (hr : LengthsRight ns) :
    LengthsRight (withTree ns t) := by
  refine lengthsRight_iff.2 fun x => ?_
  by_cases hlt : x < ns.length
  · refine (lengthsRight_iff.1 hr x).congr (by rw [getElem?_withTree t hlt]) fun c hc => ?_
    exact sizeAt_withTree t (lt_length_of_parentOf ((h.agree x c).1 hc))
  · by_cases hin : x < (withTree ns t).length
    · obtain ⟨t', q, hst, -⟩ := exists_hangs_withTree ht (Nat.le_of_not_lt hlt) hin
      exact hst.rightAt
    · intro n hn
      exact absurd (List.getElem?_eq_some_iff.1 hn).1 hin

/-- The body kinds of the new tree follow its tags (10_state R39(a)). -/
theorem kind_withTree (ht : t.Shaped d) (hk : ∀ n ∈ ns, n.body.isCons = n.tag.constructed) :
    ∀ n ∈ withTree ns t, n.body.isCons = n.tag.constructed := by
  intro n hn
  obtain ⟨x, hx⟩ := List.getElem?_of_mem hn
  by_cases hlt : x < ns.length
  · exact hk n (List.mem_of_getElem? (getElem?_withTree t hlt ▸ hx))
  · obtain ⟨t', q, hst, e, levels, -, hsh, -⟩ :=
      exists_hangs_withTree ht (Nat.le_of_not_lt hlt) (List.getElem?_eq_some_iff.1 hx).1
    rw [hst.getElem?] at hx
    cases hx
    exact Tree.isCons_record hsh x q

end

theorem sum_value_withTree (ns : List Node) (t : Tree) :
    ((withTree ns t).map fun n => n.value.length).sum = (ns.map fun n => n.value.length).sum + t.valueBytes := by
  rw [withTree, List.map_append, List.sum_append, t.sum_value_records]

end Sys2Proof.Machine
end
section
/-! SUPPORT. The arena part of the state, and what leaves it alone: HOST accesses, all commands but the few that change
nodes, and the whole protocol engine. -/

namespace Sys2Proof.Machine

/-- The part of the state that `ArenaInv` speaks of. -/
def State.arena (s : State) : Config × List Node × Word × Word := (s.cfg, s.nodes, s.ncnt, s.vused)

theorem State.ArenaInv.of_arena {s t : State} (h : s.ArenaInv) (ht : t.arena = s.arena) : t.ArenaInv := by
  simp only [State.arena, Prod.mk.injEq] at ht
  obtain ⟨hc, hn, hk, hv⟩ := ht
  exact h.congr hc hn hk hv

/-! ### The protocol engine -/

@[simp] theorem State.arena_start (s : State) (c : BitVec 8) : (s.start c).arena = s.arena := rfl
@[simp] theorem State.arena_finish (s : State) : s.finish.arena = s.arena := rfl
@[simp] theorem State.arena_raise (s : State) (e : Err) : (s.raise e).arena = s.arena := rfl
@[simp] theorem State.arena_abortWith (s : State) (e : Err) (sub : BitVec 8) :
    (s.abortWith e sub).arena = s.arena := rfl
@[simp] theorem State.arena_callExchange (s : State) (j : Job) (r : Nat) (out : List Byte) :
    (s.callExchange j r out).arena = s.arena := rfl
@[simp] theorem State.arena_storeSlot (s : State) (p : BitVec 1) (raw : List Byte) :
    (s.storeSlot p raw).arena = s.arena := by simp [State.arena]

@[simp] theorem State.arena_tryOpen (s : State) (left : Nat) (last : BitVec 8) :
    (s.tryOpen left last).arena = s.arena := by
  rcases s.tryOpen_cases left last with ⟨sub, h, -⟩ | ⟨k, -, -, h⟩ <;> simp [h]

@[simp] theorem State.arena_failJob (s : State) (j : Job) (e : Err) : (s.failJob j e).arena = s.arena := by
  cases j <;> simp

@[simp] theorem State.arena_transmit (s : State) (j : Job) (r : Nat) (out : List Byte) :
    (s.transmit j r out).arena = s.arena := by
  by_cases hr : r = 0
  · simp [hr, State.transmit_zero]
  · simp [State.transmit_pos s j hr]

@[simp] theorem State.arena_retransmit (s : State) (w : Work) (out : List Byte) :
    (s.retransmit w out).arena = s.arena := s.arena_transmit _ _ _

@[simp] theorem State.arena_returnBlock (s : State) (j : Job) (b : Block) :
    (s.returnBlock j b).arena = s.arena := by
  match j with
  | .xmit => rw [State.returnBlock, State.endXmit_eq]; rfl
  | .opening a .resynch =>
    rw [State.returnBlock, State.endResynch]
    split
    · exact State.arena_transmit _ _ _ _
    · exact s.arena_failJob _ _
  | .opening a .ifs =>
    rw [State.returnBlock, State.endIfs]
    split
    · rfl
    · exact s.arena_failJob _ _

@[simp] theorem State.arena_armUnknown (s : State) (w : Work) : (s.armUnknown w).arena = s.arena := by
  unfold State.armUnknown
  split <;> simp

@[simp] theorem State.arena_armEdc (s : State) (w : Work) : (s.armEdc w).arena = s.arena :=
  (State.arena_retransmit _ _ _).trans (State.arena_storeSlot _ _ _)

/-- What the arm of a waiting command keeps, `whileWaiting` keeps. -/
theorem State.arena_whileWaiting {s : State} {arm : Work → State} (h : ∀ w, (arm w).arena = s.arena) :
    (s.whileWaiting arm).arena = s.arena := by
  cases hw : s.work with
  | none => rw [State.whileWaiting_none hw]
  | some w => rw [State.whileWaiting_some hw, h]

/-- No arm of internal_transmit touches the arena (43_t1_protocol R192 to R199). -/
@[simp] theorem State.arena_reply (s : State) (i : Instr) : (s.reply i).arena = s.arena := by
  cases i
  case pcbI => exact State.arena_whileWaiting fun w => State.arena_returnBlock _ _ _
  case pcbR =>
    refine State.arena_whileWaiting fun w => ?_
    unfold State.armR
    split <;> simp
  case pcbWtxRequest =>
    refine State.arena_whileWaiting fun w => ?_
    unfold State.armWtx
    split <;> simp
  case pcbResynchResponse =>
    refine State.arena_whileWaiting fun w => ?_
    unfold State.armResynch
    split <;> simp
  case pcbIfsResponse =>
    refine State.arena_whileWaiting fun w => ?_
    unfold State.armIfs
    split <;> simp
  case pcbResynchRequest | pcbIfsRequest | pcbAbortRequest | pcbAbortResponse | pcbWtxResponse
    | pcbVppStateErrorResponse => exact State.arena_whileWaiting s.arena_armUnknown
  all_goals rfl

/-- No answer of the LINE touches the arena. -/
@[simp] theorem State.arena_answer (s : State) (a : Answer) : (s.answer a).arena = s.arena := by
  unfold State.answer
  rcases s.receive_cases a with ⟨-, h⟩ | ⟨w, -, ⟨-, h⟩ | ⟨g, -, ⟨-, h⟩ | ⟨-, h⟩ | ⟨b, -, ⟨e, -, h⟩ | ⟨i, -, h⟩⟩⟩⟩ <;>
    rw [h]
  · exact s.arena_failJob _ _
  · exact State.arena_failJob _ _ _
  · exact State.arena_armEdc _ _
  · exact State.arena_armUnknown _ _
  · exact State.arena_reply _ _

@[simp] theorem State.arena_serve (l : List Input) (s : State) : (s.serve l).arena = s.arena :=
  State.serve_keeps (P := fun t => t.arena = s.arena)
    (fun _ _ a _ _ h => (State.arena_answer _ a).trans h) l s rfl

@[simp] theorem State.arena_beginOpen (s : State) : s.beginOpen.arena = s.arena := by
  unfold State.beginOpen
  split <;> simp

@[simp] theorem State.arena_beginXmit (s : State) : s.beginXmit.arena = s.arena := by
  unfold State.beginXmit
  split
  · simp
  · split <;> simp

/-! ### HOST accesses -/

@[simp] theorem State.arena_writeReg (s : State) (n : Nat) (v : Word) : (s.writeReg n v).arena = s.arena := by
  unfold State.writeReg
  split
  case h_5 | h_7 => split <;> rfl
  all_goals rfl

@[simp] theorem State.arena_writeByte (s : State) (sp : Space) (off : Nat) (b : Byte) :
    (s.writeByte sp off b).arena = s.arena := by
  unfold State.writeByte
  split
  · cases sp <;> rfl
  · rfl

/-- What a HOST access settles has the arena of before (44_system R223 to R225). -/
theorem State.arena_hostAccess_settled {s t : State} {a : Access} (h : s.hostAccess a = .settled t) :
    t.arena = s.arena := by
  cases a with
  | readReg n => cases h; rfl
  | readByte sp off => cases h; rfl
  | writeByte sp off b =>
    simp only [State.hostAccess] at h
    split at h <;> cases h
    · rfl
    · exact s.arena_writeByte sp off b
  | writeReg n v =>
    simp only [State.hostAccess] at h
    split at h
    · cases h; rfl
    · split at h
      · rcases s.writeCmd_cases v with ⟨i, -, hw⟩ | ⟨e, -, hw⟩ <;> rw [hw] at h <;> cases h
        rfl
      · cases h
        exact s.arena_writeReg n v

end Sys2Proof.Machine
end

section
/-! SUPPORT. What each command makes of the arena invariants (10_state R39). -/

namespace Sys2Proof.Machine

/-! ### Commands that leave the arena alone -/

/-- A transactional command keeps what its success keeps, if its error does. -/
theorem State.complete_of {P : State → Prop} {s : State} {r : Except Err State} (hok : ∀ t, r = .ok t → P t.finish)
    (herr : ∀ e, P (s.raise e)) : P (s.complete r) := by
  rcases s.complete_cases r with ⟨t, hr, h⟩ | ⟨e, -, h⟩ <;> rw [h]
  · exact hok t hr
  · exact herr e

/-- A transactional command whose success leaves the arena alone leaves it alone. -/
theorem State.arena_complete {s : State} {r : Except Err State} (h : ∀ t, r = .ok t → t.arena = s.arena) :
    (s.complete r).arena = s.arena :=
  State.complete_of (P := fun t => t.arena = s.arena) (fun t ht => h t ht) fun _ => rfl

theorem State.arena_of_emit {s t : State} {bs : List Byte} (h : s.emit bs = .ok t) : t.arena = s.arena := by
  obtain ⟨-, rfl⟩ := State.emit_ok.1 h
  rfl

theorem State.arena_of_build {s t : State} {pcb : Byte} {data : List Byte} (h : s.build pcb data = .ok t) :
    t.arena = s.arena := by
  unfold State.build at h
  split at h <;> cases h
  rfl

/-- The commands that can change the arena: the two that reset it and those that make or change a node. -/
def changesArena : List Instr := [.srst, .tlvparse, .tlvparseat, .tlvappend, .tlvnewp, .tlvnewc, .tlvsetv, .tlvclr]

/-- No other instruction touches the arena, whatever it answers. -/
theorem arena_of_exec {i : Instr} (hi : i ∉ changesArena) {s t : State} (h : exec i s = .next t) :
    t.arena = s.arena := by
  cases i
  case srst | tlvparse | tlvparseat | tlvappend | tlvnewp | tlvnewc | tlvsetv | tlvclr =>
    exact absurd (by decide) hi
  case nop => cases h; rfl
  case t1open => cases h; exact (State.arena_serve _ _).trans s.arena_beginOpen
  case t1xmit => cases h; exact (State.arena_serve _ _).trans s.arena_beginXmit
  case tagdec | lendec | tlvfind | tlvget | t1parse | t1edc =>
    cases h
    refine State.arena_complete fun t ht => ?_
    simp only [tagdecBody, lendecBody, tlvfindBody, tlvgetBody, t1parseBody, t1edcBody] at ht
    repeat' split at ht
    all_goals cases ht
    all_goals rfl
  case lenenc => cases h; exact State.arena_complete fun t ht => State.arena_of_emit ht
  case tagenc =>
    cases h
    refine State.arena_complete fun t ht => ?_
    unfold tagencBody at ht
    split_ifs at ht
    exact State.arena_of_emit ht
  case tlvser =>
    cases h
    refine State.arena_complete fun t ht => ?_
    unfold tlvserBody at ht
    split at ht
    · cases ht
    · exact State.arena_of_emit ht
  case tlvgetv =>
    cases h
    refine State.arena_complete fun t ht => ?_
    unfold tlvgetvBody at ht
    split at ht
    · cases ht
    · split_ifs at ht
      exact State.arena_of_emit ht
  case t1mki | t1mkr | t1mks =>
    cases h
    refine State.arena_complete fun t ht => ?_
    simp only [t1mkiBody, t1mkrBody, t1mksBody] at ht
    split_ifs at ht
    exact State.arena_of_build ht
  all_goals
    rw [exec_of_pcb rfl] at h
    cases h
    exact s.arena_reply _

/-! ### Commands that change it -/

theorem State.ArenaInv.linked {s : State} (h : s.ArenaInv) : Linked s.cfg.depthMax s.nodes where
  agree p c := by
    constructor
    · intro hc
      have hp := lt_length_of_mem_childrenOf hc
      have hget := List.getElem?_eq_getElem hp
      have hlt : c < s.nodes.length :=
        h.childIds _ (List.mem_of_getElem? hget) c (childrenOf_of_getElem? hget ▸ hc)
      exact (h.agree p hp c hlt).1 hc
    · intro hp
      have hlt := lt_length_of_parentOf hp
      have hget := List.getElem?_eq_getElem hlt
      have hplt : p < s.nodes.length :=
        h.parentIds _ (List.mem_of_getElem? hget) p (by rw [← parentOf_of_getElem? hget, hp]; rfl)
      exact (h.agree p hplt c hlt).2 hp
  nodup x := by
    by_cases hx : x < s.nodes.length
    · have hget := List.getElem?_eq_getElem hx
      exact childrenOf_of_getElem? hget ▸ h.nodup _ (List.mem_of_getElem? hget)
    · exact List.eq_nil_iff_forall_not_mem.2 (fun c hc => hx (lt_length_of_mem_childrenOf hc)) ▸ List.nodup_nil
  paths x hx := climbs_iff.1 (h.depth x hx)

/-- The arena invariants from the links and the lengths of the whole arena. -/
theorem State.ArenaInv.of_linked {s : State} (hcfg : s.cfg.WellFormed) (hncnt : s.ncnt.toNat = s.nodes.length)
    (hcap : s.nodes.length ≤ s.cfg.nodeCap) (hkind : ∀ n ∈ s.nodes, n.body.isCons = n.tag.constructed)
    (hlink : Linked s.cfg.depthMax s.nodes) (hlen : LengthsRight s.nodes)
    (hvused : s.vused.toNat = (s.nodes.map fun n => n.value.length).sum) (hval : s.vused.toNat ≤ s.cfg.valCap) :
    s.ArenaInv where
  cfg := hcfg
  ncnt := hncnt
  capacity := hcap
  kind := hkind
  childIds n hn c hc := by
    obtain ⟨x, hx⟩ := List.getElem?_of_mem hn
    exact lt_length_of_parentOf ((hlink.agree x c).1 (by rwa [childrenOf_of_getElem? hx]))
  parentIds n hn p hp := by
    obtain ⟨x, hx⟩ := List.getElem?_of_mem hn
    exact hlink.parent_lt (parentOf_of_getElem? hx ▸ hp)
  agree p _ c _ := hlink.agree p c
  nodup n hn := by
    obtain ⟨x, hx⟩ := List.getElem?_of_mem hn
    exact childrenOf_of_getElem? hx ▸ hlink.nodup x
  depth x hx := climbs_iff.2 (hlink.paths x hx)
  lengths := hlen
  vused := hvused
  valCap := hval

/-- An arena without nodes meets its invariants: after both resets and TLVCLR. -/
theorem State.ArenaInv.of_nil {s : State} (hcfg : s.cfg.WellFormed) (hn : s.nodes = []) (hk : s.ncnt = 0#32)
    (hv : s.vused = 0#32) : s.ArenaInv := by
  refine .of_linked hcfg (by simp [hn, hk]) (by simp [hn]) (by simp [hn]) ⟨?_, ?_, ?_⟩ ?_ (by simp [hn, hv])
    (by simp [hv]) <;> simp [hn, childrenOf, parentOf, LengthsRight]

/-- One more tree within the two capacities keeps the invariants (41_tlv_unit R142, R150, R151). -/
theorem State.ArenaInv.add_tree {s t : State} (h : s.ArenaInv) {tr : Tree} (htr : tr.Shaped s.cfg.depthMax)
    (hcap : s.ncnt.toNat + tr.count ≤ s.cfg.nodeCap) (hval : s.vused.toNat + tr.valueBytes ≤ s.cfg.valCap)
    (ht : t.arena = (s.cfg, s.nodes ++ tr.records s.ncnt.toNat none, BitVec.ofNat 32 (s.ncnt.toNat + tr.count),
      BitVec.ofNat 32 (s.vused.toNat + tr.valueBytes))) : t.ArenaInv := by
  simp only [State.arena, Prod.mk.injEq] at ht
  obtain ⟨hc, hn, hk, hv⟩ := ht
  have hfit := h.cfg.lengths_fit
  have hnodes : t.nodes = withTree s.nodes tr := by rw [hn, withTree, h.ncnt]
  have hkt : t.ncnt.toNat = s.nodes.length + tr.count := by
    rw [hk, BitVec.toNat_ofNat, Nat.mod_eq_of_lt (by omega), h.ncnt]
  have hvt : t.vused.toNat = s.vused.toNat + tr.valueBytes := by
    rw [hv, BitVec.toNat_ofNat, Nat.mod_eq_of_lt (by omega)]
  refine .of_linked (hc ▸ h.cfg) ?_ ?_ ?_ ?_ ?_ ?_ ?_
  · rw [hkt, hnodes, length_withTree]
  · rw [hnodes, length_withTree, ← h.ncnt, hc]; exact hcap
  · rw [hnodes]; exact kind_withTree htr h.kind
  · rw [hnodes, hc]; exact linked_withTree h.linked htr
  · rw [hnodes]; exact lengthsRight_withTree h.linked htr h.lengths
  · rw [hnodes, sum_value_withTree, hvt, h.vused]
  · rw [hvt, hc]; exact hval

end Sys2Proof.Machine
end

section
/-! SUPPORT. The commands that change the arena, and the step (10_state R39). -/

namespace Sys2Proof.Machine

/-- TLVPARSE and TLVPARSEAT store a tree of the depth that is left (41_tlv_unit R143, R144). -/
theorem arenaInv_of_parseAtBody {s t : State} {o : Nat} (h : s.ArenaInv) (ht : parseAtBody s o = .ok t) :
    t.ArenaInv := by
  unfold parseAtBody at ht
  split at ht
  · cases ht
  · rename_i tr rest hparse
    split at ht
    · cases ht
    · rename_i s' id hcommit
      obtain ⟨hcap, hval, -, rfl⟩ := State.commit_ok.1 hcommit
      cases ht
      exact h.add_tree (shaped_of_parseNode hparse) hcap hval rfl

/-- A new root is a tree of one node (41_tlv_unit R150, R151). -/
theorem State.ArenaInv.newRoot {s : State} (h : s.ArenaInv) {tr : Tree} {n : Node} {used : Nat}
    (htr : tr.Shaped s.cfg.depthMax) (hn : tr.records s.ncnt.toNat none = [n]) (hu : tr.valueBytes = used)
    (hcap : s.ncnt.toNat < s.cfg.nodeCap) (hval : s.vused.toNat + used ≤ s.cfg.valCap) :
    (s.newRoot n used).ArenaInv := by
  have hcount : tr.count = 1 := by
    rw [← tr.length_records s.ncnt.toNat none, hn, List.length_singleton]
  refine h.add_tree htr (by omega) (by omega) ?_
  have hnext : s.ncnt + 1#32 = BitVec.ofNat 32 (s.ncnt.toNat + 1) := BitVec.eq_of_toNat_eq (by simp)
  simp [State.arena, hn, hcount, hu, hnext]

theorem arenaInv_of_tlvnewpBody {s t : State} (h : s.ArenaInv) (ht : tlvnewpBody s = .ok t) : t.ArenaInv := by
  unfold tlvnewpBody at ht
  split_ifs at ht with hop hrange hfull
  cases ht
  obtain ⟨k, hk⟩ := Nat.exists_eq_add_of_le' h.cfg.depthMax_min
  refine h.newRoot (tr := .prim (tagOfWord s.a0) (s.tb.readRange s.a1.toNat s.a2.toNat)) ?_ ?_ ?_ (by omega)
    (by omega)
  · rw [hk]
    simpa [Tree.Shaped, tagOfWord] using fun hc => hop (.inr hc)
  · simp [Tree.records]
  · simp [Tree.valueBytes]

theorem arenaInv_of_tlvnewcBody {s t : State} (h : s.ArenaInv) (ht : tlvnewcBody s = .ok t) : t.ArenaInv := by
  unfold tlvnewcBody at ht
  split_ifs at ht with hop hfull
  cases ht
  obtain ⟨k, hk⟩ := Nat.exists_eq_add_of_le' h.cfg.depthMax_min
  have hval := h.valCap
  refine h.newRoot (tr := .cons (tagOfWord s.a0) []) ?_ ?_ ?_ (by omega) (by omega)
  · rw [hk]
    simpa [Tree.Shaped, Tree.ShapedList, tagOfWord] using fun hc => hop (.inr hc)
  · simp [Tree.records, Tree.recordsList, Tree.rootIds, Tree.sizeList]
  · simp [Tree.valueBytes, Tree.valueBytesList]

/-- TLVAPPEND links two trees within `DEPTH_MAX`; tags, body kinds and values stay (41_tlv_unit R149). -/
theorem arenaInv_of_tlvappendBody {s t : State} (h : s.ArenaInv) (ht : tlvappendBody s = .ok t) : t.ArenaInv := by
  unfold tlvappendBody at ht
  split at ht
  · rename_i p c hp hc
    obtain ⟨-, hp⟩ := State.node_ok.1 hp
    obtain ⟨-, hc⟩ := State.node_ok.1 hc
    split_ifs at ht with hcons hroot hself hdeep
    cases ht
    have hplt := (List.getElem?_eq_some_iff.1 hp).1
    have hclt := (List.getElem?_eq_some_iff.1 hc).1
    have hcroot : parentOf s.nodes s.a1.toNat = none := by
      rw [parentOf_of_getElem? hc]; exact not_not.1 hroot
    have hpcons : p.body.isCons = true := by simpa using hcons
    have hne := Ne.symm hself
    have hdepth := Nat.le_of_not_lt hdeep
    refine .of_linked h.cfg ?_ ?_ (kind_of_column (kinds_appendChild hp hpcons) h.kind)
      (linked_appendChild h.linked hplt hclt hcroot hne hdepth)
      (lengthsRight_appendChild h.linked hplt hclt hcroot hne hdepth h.lengths) ?_ h.valCap
    · simpa using h.ncnt
    · simpa using h.capacity
    · simp only [valueLengths_appendChild hp hpcons]
      exact h.vused
  · cases ht

/-- TLVSETV changes one primitive node and the lengths above it; VUSED follows its value (41_tlv_unit R152). -/
theorem arenaInv_of_tlvsetvBody {s t : State} (h : s.ArenaInv) (ht : tlvsetvBody s = .ok t) : t.ArenaInv := by
  unfold tlvsetvBody at ht
  split at ht
  · cases ht
  · rename_i n hn
    obtain ⟨-, hn⟩ := State.node_ok.1 hn
    split_ifs at ht with hcons hrange hfull
    cases ht
    have hb : n.body.isCons = false := by simpa using hcons
    generalize hv : s.tb.readRange s.a1.toNat s.a2.toNat = v
    have hvlen : v.length = s.a2.toNat := by simp [← hv]
    have hvused : (BitVec.ofNat 32 (s.vused.toNat - n.length + s.a2.toNat)).toNat =
        s.vused.toNat - n.length + s.a2.toNat := by
      have := h.cfg.lengths_fit
      rw [BitVec.toNat_ofNat, Nat.mod_eq_of_lt (by omega)]
    have hold : n.value.length = n.length := length_value_of_prim h.lengths hn hb
    have hle : n.value.length ≤ (s.nodes.map fun m => m.value.length).sum :=
      List.le_sum_of_mem (List.mem_map_of_mem (List.mem_of_getElem? hn))
    have hsum := sum_value_setValue hn v
    have hcount := h.vused
    refine .of_linked h.cfg ?_ ?_ (kind_of_column (kinds_setValue hn hb v) h.kind) (linked_setValue hn hb h.linked v)
      (lengthsRight_setValue hn hb h.linked h.lengths v) ?_ ?_
    · simpa using h.ncnt
    · simpa using h.capacity
    · simp only [hvused]
      omega
    · simp only [hvused]
      omega

/-- Both resets leave an empty arena (10_state R47). -/
theorem arenaInv_resetArch {s : State} (h : s.ArenaInv) : s.resetArch.ArenaInv := .of_nil h.cfg rfl rfl rfl

/-- Every instruction keeps the arena invariants. -/
theorem arenaInv_of_exec {i : Instr} {s t : State} (h : s.ArenaInv) (ht : exec i s = .next t) : t.ArenaInv := by
  have hcomplete : ∀ r : Except Err State, (∀ u, r = .ok u → u.ArenaInv) → (s.complete r).ArenaInv := fun r hok =>
    State.complete_of (fun u hu => (hok u hu).of_arena u.arena_finish) fun e => h.of_arena (s.arena_raise e)
  by_cases hi : i ∈ changesArena
  · simp only [changesArena, List.mem_cons, List.not_mem_nil, or_false] at hi
    rcases hi with rfl | rfl | rfl | rfl | rfl | rfl | rfl | rfl <;> cases ht
    · exact (arenaInv_resetArch h).of_arena rfl
    · exact hcomplete _ fun u => arenaInv_of_parseAtBody h
    · exact hcomplete _ fun u => arenaInv_of_parseAtBody h
    · exact hcomplete _ fun u => arenaInv_of_tlvappendBody h
    · exact hcomplete _ fun u => arenaInv_of_tlvnewpBody h
    · exact hcomplete _ fun u => arenaInv_of_tlvnewcBody h
    · exact hcomplete _ fun u => arenaInv_of_tlvsetvBody h
    · exact .of_nil h.cfg rfl rfl rfl
  · exact h.of_arena (arena_of_exec hi ht)

/-- Settles O58: an event reaches the arena only through the instruction it runs, or as the hardware reset. -/
theorem stepKeepsArena : Obligations.StepKeepsArena := by
  unfold Obligations.StepKeepsArena
  intro s t h ht
  match hin : s.inputs with
  | [] =>
    rw [step_nil hin] at ht
    cases ht
    exact h
  | .line a :: rest =>
    rw [step_line hin] at ht
    cases ht
    exact h.of_arena (State.arena_answer _ a)
  | .hardReset :: rest =>
    rw [step_cons hin] at ht
    cases ht
    exact (arenaInv_resetArch h).of_arena rfl
  | .host a :: rest =>
    have hrest : ({ s with inputs := rest } : State).ArenaInv := h.of_arena rfl
    rw [step_cons hin] at ht
    change (State.hostAccess _ a).outcome = _ at ht
    cases ha : ({ s with inputs := rest } : State).hostAccess a with
    | settled u =>
      rw [ha] at ht
      cases ht
      exact hrest.of_arena (State.arena_hostAccess_settled ha)
    | run i u =>
      rw [ha] at ht
      obtain ⟨v, -, -, -, rfl⟩ := State.hostAccess_run ha
      exact arenaInv_of_exec (hrest.of_arena (State.arena_start _ _)) ht

end Sys2Proof.Machine
end
section
/-! SUPPORT. Both resets (10_state R47, 44_system R222, 70_reset_and_hazards R260). -/

namespace Sys2Proof.Machine

/-- The reset values of 10_state R47, for every choice of parameters. -/
theorem atReset_resetWith (c : Config) : AtReset (State.resetWith c) where
  errors := ⟨rfl, rfl⟩
  operands := ⟨rfl, rfl, rfl, rfl⟩
  results := ⟨rfl, rfl, rfl, rfl⟩
  tlv := ⟨rfl, rfl, rfl, rfl⟩
  octets _ := ⟨rfl, rfl, rfl, rfl, rfl⟩
  lengths := ⟨rfl, rfl, rfl, rfl⟩
  mode := rfl
  addresses := ⟨rfl, rfl⟩
  session := ⟨rfl, rfl, rfl, rfl, rfl⟩
  idle := rfl

/-- What stands at reset stands so whatever CMD, STATUS and the model's own records are. -/
theorem AtReset.congr {s : State} (h : AtReset s) (c : BitVec 8) (st : Word) (es : List Input) (hd : Word) :
    AtReset { s with cmd := c, status := st, inputs := es, hostData := hd } := by
  obtain ⟨herrors, hops, hres, htlv, hoctets, hlen, hmode, haddr, hsession, hidle⟩ := h
  exact ⟨herrors, hops, hres, htlv, hoctets, hlen, hmode, haddr, hsession, hidle⟩

/-- Settles O11: both resets leave `State.resetWith` of the parameters but for the fields the statement names. -/
theorem resetsRestoreEveryValue : Obligations.ResetsRestoreEveryValue := by
  unfold Obligations.ResetsRestoreEveryValue
  refine ⟨rfl, fun s rest hin => ?_, fun s => ?_, atReset_resetWith _, rfl, rfl, rfl, rfl, rfl, rfl⟩
  · refine ⟨_, step_cons hin, ?_, rfl, rfl, rfl, rfl, rfl, rfl⟩
    exact (atReset_resetWith s.cfg).congr _ _ rest s.hostData
  · refine ⟨_, rfl, ?_, rfl, rfl, rfl, rfl, rfl, rfl⟩
    exact (atReset_resetWith s.cfg).congr _ _ s.inputs s.hostData

end Sys2Proof.Machine
end
section
/-! SUPPORT. Runs of octets taken apart, and the cursor that `len_decode` moves over them (30_encoding R87). -/

namespace Sys2Proof.Machine

/-! ### Runs of octets -/

theorem Memory.readRange_succ (m : Memory) (a n : Nat) : m.readRange a (n + 1) = m.read a :: m.readRange (a + 1) n := by
  simp [Memory.readRange, List.range_succ_eq_map, Nat.add_assoc, Nat.add_comm 1]

theorem Memory.readRange_succ_last (m : Memory) (a n : Nat) :
    m.readRange a (n + 1) = m.readRange a n ++ [m.read (a + n)] := by
  simp [Memory.readRange, List.range_succ]

theorem Memory.drop_readRange (m : Memory) (a n k : Nat) : (m.readRange a n).drop k = m.readRange (a + k) (n - k) := by
  apply List.ext_getElem
  · simp
  · intro i _ _
    simp [Memory.readRange, Nat.add_assoc]

theorem Memory.take_readRange (m : Memory) {a n k : Nat} (h : k ≤ n) :
    (m.readRange a n).take k = m.readRange a k := by
  rw [Memory.readRange, ← List.map_take, List.take_range, Nat.min_eq_left h, Memory.readRange]

/-- The octets a decoder sees are those from its offset up to TLEN (30_encoding R85, R87). -/
theorem State.tbFrom_eq (s : State) (o : Nat) : s.tbFrom o = s.tb.readRange o (s.tlen.toNat - o) := by
  simp only [State.tbFrom, State.tbValid, Memory.drop_readRange, Nat.zero_add]

/-- A decoder that leaves the octets from offset `i` on unread answers `i`. -/
theorem State.tbOffset_readRange (s : State) {i : Nat} (h : i ≤ s.tlen.toNat) :
    s.tbOffset (s.tb.readRange i (s.tlen.toNat - i)) = BitVec.ofNat 32 i := by
  rw [State.tbOffset, Memory.length_readRange, Nat.sub_sub_self h]

theorem bigEndian_readRange (m : Memory) (a k : Nat) : bigEndian (m.readRange a k) = octetValue m.read a k := by
  induction k with
  | zero => rfl
  | succ k ih => rw [Memory.readRange_succ_last, bigEndian_append, ih, octetValue]

/-! ### The length decoder as a cursor -/

theorem getLsbD_seven_iff (b : Byte) : b.getLsbD 7 = true ↔ 128 ≤ b.toNat := by
  rw [← BitVec.msb_eq_getLsbD_last, BitVec.msb_eq_decide, decide_eq_true_eq]

theorem toNat_lowSeven {b : Byte} (h : 128 ≤ b.toNat) : (b.extractLsb' 0 7).toNat = b.toNat - 128 := by
  have hlt : b.toNat < 256 := b.isLt
  simp only [BitVec.extractLsb'_toNat, Nat.shiftRight_zero]
  omega

section
variable {b : Nat → Byte} {o lim : Nat}

theorem cursorLen_outside (hlim : lim ≤ o) : cursorLen b o lim = .error .malformedTlv := if_pos hlim

theorem cursorLen_short (hlim : ¬ lim ≤ o) (hf : (b o).toNat < 128) : cursorLen b o lim = .ok ((b o).toNat, o + 1) :=
  (if_neg hlim).trans (if_pos hf)

/-- The malformed long forms: no octet announced, more than four, or more than there are. -/
theorem cursorLen_malformed (hlim : ¬ lim ≤ o) (hf : ¬ (b o).toNat < 128)
    (hbad : (b o).toNat = 128 ∨ 132 < (b o).toNat ∨ lim < o + 1 + ((b o).toNat - 128)) :
    cursorLen b o lim = .error .malformedTlv := by
  simp only [cursorLen, if_neg hlim, if_neg hf]
  split_ifs with hk hroom
  · rfl
  · rfl
  · exact absurd hbad (by omega)

theorem cursorLen_long (hlim : ¬ lim ≤ o) (hf : ¬ (b o).toNat < 128)
    (hgood : ¬ ((b o).toNat = 128 ∨ 132 < (b o).toNat ∨ lim < o + 1 + ((b o).toNat - 128))) :
    cursorLen b o lim = .ok (octetValue b (o + 1) ((b o).toNat - 128), o + 1 + ((b o).toNat - 128)) := by
  simp only [cursorLen, if_neg hlim, if_neg hf]
  rw [if_neg (by omega), if_neg (by omega)]

/-- The cursor stays inside the octets. -/
theorem cursorLen_le {l i : Nat} (h : cursorLen b o lim = .ok (l, i)) : i ≤ lim := by
  simp only [cursorLen] at h
  split_ifs at h <;> obtain ⟨-, hi⟩ := Prod.mk.inj (Except.ok.inj h)
  · omega
  · omega

end

/-- `lenDecode` over the octets in `[o, lim)` is the cursor of 30_encoding R87; what it leaves starts at the cursor. -/
theorem lenDecode_readRange (m : Memory) (o lim : Nat) :
    lenDecode (m.readRange o (lim - o)) =
      (cursorLen m.read o lim).map fun p => (p.1, m.readRange p.2 (lim - p.2)) := by
  unfold cursorLen
  by_cases hlim : lim ≤ o
  · rw [if_pos hlim, Nat.sub_eq_zero_of_le hlim]
    rfl
  · obtain ⟨n, rfl⟩ : ∃ n, lim = o + 1 + n := ⟨lim - (o + 1), by omega⟩
    rw [if_neg hlim, show o + 1 + n - o = n + 1 by omega, Memory.readRange_succ, lenDecode]
    by_cases hshort : (m.read o).toNat < 128
    · rw [if_neg (by rw [getLsbD_seven_iff]; omega), if_pos hshort]
      simp [Except.map]
    · have hlong : 128 ≤ (m.read o).toNat := by omega
      rw [if_pos ((getLsbD_seven_iff _).2 hlong), if_neg hshort]
      simp only [toNat_lowSeven hlong, Memory.length_readRange]
      generalize (m.read o).toNat - 128 = k
      by_cases hk : k = 0 ∨ 4 < k
      · simp only [if_pos hk]
        rfl
      · by_cases hn : n < k
        · simp only [if_neg hk, if_pos hn, if_pos (show o + 1 + n < o + 1 + k by omega)]
          rfl
        · simp only [if_neg hk, if_neg hn, if_neg (show ¬ o + 1 + n < o + 1 + k by omega), Except.map,
            Memory.take_readRange m (show k ≤ n by omega), bigEndian_readRange, Memory.drop_readRange,
            show o + 1 + n - (o + 1 + k) = n - k by omega]

end Sys2Proof.Machine
end

section
/-! SUPPORT. The length commands (40_tag_len_unit R123, R124). -/

namespace Sys2Proof.Machine

theorem exec_lendec (s : State) : exec .lendec s = .next (s.complete (lendecBody s)) := rfl

theorem exec_lenenc (s : State) : exec .lenenc s = .next (s.complete (s.emit (lenEncode s.a0.toNat))) := rfl

/-! ### LENDEC -/

/-- LENDEC moves the cursor from A0 within TLEN: R0 takes the length, R1 the cursor. -/
theorem lendecBody_eq (s : State) :
    lendecBody s = (cursorLen s.tb.read s.a0.toNat s.tlen.toNat).map fun p =>
      { s with r0 := BitVec.ofNat 32 p.1, r1 := BitVec.ofNat 32 p.2 } := by
  rw [lendecBody, State.tbFrom_eq, lenDecode_readRange]
  cases hc : cursorLen s.tb.read s.a0.toNat s.tlen.toNat with
  | error e => rfl
  | ok p => simp only [Except.map, State.decoded, s.tbOffset_readRange (cursorLen_le hc)]

theorem exec_lendec_of_ok {s : State} {l i : Nat} (h : cursorLen s.tb.read s.a0.toNat s.tlen.toNat = .ok (l, i)) :
    exec .lendec s = .next { s with r0 := BitVec.ofNat 32 l, r1 := BitVec.ofNat 32 i, status := 2#32 } := by
  rw [exec_lendec, lendecBody_eq, h]
  rfl

theorem exec_lendec_of_error {s : State} (h : cursorLen s.tb.read s.a0.toNat s.tlen.toNat = .error .malformedTlv) :
    exec .lendec s = .next (raised s 0x11#8) := by
  rw [exec_lendec, lendecBody_eq, h]
  rfl

/-- Settles O16: the branches of the statement are those of the cursor that LENDEC moves. -/
theorem lendecReadsLength : Obligations.LendecReadsLength := by
  unfold Obligations.LendecReadsLength
  refine ⟨rfl, fun s => ?_⟩
  intro b o f
  split_ifs with hlim hshort hbad
  · exact exec_lendec_of_error (cursorLen_outside hlim)
  · exact exec_lendec_of_ok (cursorLen_short hlim hshort)
  · exact exec_lendec_of_error (cursorLen_malformed hlim hshort hbad)
  · exact exec_lendec_of_ok (cursorLen_long hlim hshort hbad)

/-! ### LENENC -/

/-- What an encoder ends in: BufferOverflow, or its octets appended (40_tag_len_unit R120). -/
theorem State.complete_emit {s : State} (hm : s.MemoryInv) (hc : s.cfg.WellFormed) (bs : List Byte) :
    if s.cfg.tbCap < s.tlen.toNat + bs.length then s.complete (s.emit bs) = raised s 0x47#8
    else Appended s (s.complete (s.emit bs)) bs := by
  split
  · next hfull =>
    rw [State.emit_error.2 ⟨hfull, rfl⟩]
    rfl
  · next hroom =>
    have hfits := hc.tbCap_fits
    rw [State.emit_ok.2 ⟨Nat.le_of_not_lt hroom, rfl⟩]
    refine ⟨fun a => Memory.read_writeRange hm.tb_wf _ a bs, ?_, ?_, rfl⟩
    · exact (BitVec.toNat_ofNat _ _).trans (Nat.mod_eq_of_lt (by omega))
    · exact (BitVec.toNat_ofNat _ _).trans (Nat.mod_eq_of_lt (by omega))

theorem ofNat_octet_mod (n : Nat) : BitVec.ofNat 8 (n % 256) = BitVec.ofNat 8 n :=
  BitVec.eq_of_toNat_eq (by simp)

/-- `len_encode` size by size (30_encoding R88). -/
theorem lenEncode_eq_lengthOctets (l : Nat) : lenEncode l = lengthOctets l := by
  unfold lenEncode lengthOctets
  split
  · rfl
  · next hlong =>
    rw [lenSize, if_neg hlong]
    split_ifs <;> simp [lenOctets, ofNat_octet_mod, Nat.shiftRight_eq_div_pow]

/-- Settles O17: the output convention of the encoders, at the octets of the length. -/
theorem lenencAppendsLength : Obligations.LenencAppendsLength := by
  unfold Obligations.LenencAppendsLength
  refine ⟨rfl, fun s hm hc => ?_⟩
  intro bs
  have hend := State.complete_emit hm hc bs
  rw [exec_lenenc, lenEncode_eq_lengthOctets]
  split_ifs at hend ⊢
  · rw [hend]
  · exact ⟨_, rfl, hend⟩

end Sys2Proof.Machine
end

section
/-! SUPPORT. The node a register names, and the words that stand for a Tag (10_state R38, 30_encoding R82). -/

namespace Sys2Proof.Machine

/-! ### The node a register names -/

/-- An id from NCNT on is BadNode (10_state R38). -/
theorem State.node_of_ge {s : State} {w : Word} (h : s.ncnt.toNat ≤ w.toNat) : s.node w = .error .badNode :=
  if_neg (Nat.not_lt.2 h)

/-- An id below NCNT names a node. -/
theorem State.ArenaInv.exists_node {s : State} (h : s.ArenaInv) {x : Nat} (hx : ¬ s.ncnt.toNat ≤ x) :
    ∃ n, s.nodes[x]? = some n :=
  ⟨_, List.getElem?_eq_getElem (by rw [← h.ncnt]; exact Nat.lt_of_not_le hx)⟩

theorem State.ArenaInv.node_eq {s : State} (h : s.ArenaInv) {w : Word} {n : Node}
    (hn : s.nodes[w.toNat]? = some n) : s.node w = .ok n :=
  State.node_ok.2 ⟨h.ncnt ▸ (List.getElem?_eq_some_iff.1 hn).1, hn⟩

theorem tagAt_of_getElem? {ns : List Node} {x : Nat} {n : Node} (h : ns[x]? = some n) :
    tagAt ns x = some n.tag := by simp [tagAt, h]

theorem lengthAt_of_getElem? {ns : List Node} {x : Nat} {n : Node} (h : ns[x]? = some n) :
    lengthAt ns x = some n.length := by simp [lengthAt, h]

theorem valueAt_of_getElem? {ns : List Node} {x : Nat} {n : Node} (h : ns[x]? = some n) :
    valueAt ns x = some n.value := by simp [valueAt, h]

/-- The constructed flag of a node's tag tells its body kind (10_state R39(a)). -/
theorem State.ArenaInv.constructed_eq {s : State} (h : s.ArenaInv) {x : Nat} {n : Node}
    (hn : s.nodes[x]? = some n) : (tagAt s.nodes x).map (·.constructed) = some n.body.isCons := by
  rw [tagAt_of_getElem? hn, h.kind n (List.mem_of_getElem? hn)]
  rfl

/-! ### TagWords -/

/-- The TagWord of a Tag is the sum of its three fields at their places (30_encoding R82). -/
theorem wordOfTag_eq (t : Tag) : wordOfTag t = tagWordOf t.cls.toNat t.constructed.toNat t.number.toNat := by
  have hcls := t.cls.isLt
  have hnumber := t.number.isLt
  have hflag := t.constructed.toNat_le
  refine BitVec.eq_of_toNat_eq ?_
  simp only [wordOfTag, tagWordOf, BitVec.toNat_append, BitVec.toNat_ofNat, BitVec.toNat_ofBool]
  rw [← Nat.shiftLeft_add_eq_or_of_lt hnumber, ← Nat.shiftLeft_add_eq_or_of_lt hcls,
    ← Nat.shiftLeft_add_eq_or_of_lt (by omega)]
  simp only [Nat.shiftLeft_eq]
  omega

/-- W is bit 31 of a TagWord (30_encoding R82). -/
theorem wildcard_iff (w : Word) : wildcard w = true ↔ 2 ^ 31 ≤ w.toNat := by
  rw [wildcard, ← BitVec.msb_eq_getLsbD_last, BitVec.msb_eq_decide, decide_eq_true_eq]

/-- The constructed flag is bit 30 of a TagWord (30_encoding R82). -/
theorem wordConstructed_eq (w : Word) : wordConstructed w = (w.toNat / 2 ^ 30 % 2 == 1) := by
  rw [wordConstructed, ← BitVec.testBit_toNat, Nat.testBit_eq_decide_div_mod_eq]
  rfl

theorem wordConstructed_iff (w : Word) : wordConstructed w = true ↔ w.toNat / 2 ^ 30 % 2 = 1 := by
  rw [wordConstructed_eq, beq_iff_eq]

/-- The Tag a TagWord holds, read off its number. -/
theorem tagOfWord_eq (w : Word) : tagOfWord w = tagNamed w := by
  have hnumber : w.extractLsb' 0 28 = BitVec.ofNat 28 (w.toNat % 2 ^ 28) := BitVec.eq_of_toNat_eq (by simp)
  have hcls : w.extractLsb' 28 2 = BitVec.ofNat 2 (w.toNat / 2 ^ 28 % 4) :=
    BitVec.eq_of_toNat_eq (by simp [Nat.shiftRight_eq_div_pow])
  rw [tagOfWord, tagNamed, hnumber, hcls, wordConstructed_eq]

end Sys2Proof.Machine
end

section
/-! SUPPORT. The commands that read a node (41_tlv_unit R153, R154) and the one that frees all of them (R160). -/

namespace Sys2Proof.Machine

theorem exec_tlvget (s : State) : exec .tlvget s = .next (s.complete (tlvgetBody s)) := rfl

theorem exec_tlvgetv (s : State) : exec .tlvgetv s = .next (s.complete (tlvgetvBody s)) := rfl

/-! ### TLVGET -/

theorem exec_tlvget_of_ge {s : State} (h : s.ncnt.toNat ≤ s.a0.toNat) :
    exec .tlvget s = .next (raised s 0x44#8) := by
  rw [exec_tlvget, tlvgetBody, State.node_of_ge h]
  rfl

/-- The word of no node is the one that no node id reaches. -/
theorem wordOfId_eq (x : Option Nat) : wordOfId x = BitVec.ofNat 32 (x.getD 0xFFFFFFFF) := by
  cases x <;> rfl

/-- Settles O26: the node that A0 names, and the forms of its four attributes. -/
theorem tlvgetReadsAttributes : Obligations.TlvgetReadsAttributes := by
  unfold Obligations.TlvgetReadsAttributes
  refine ⟨rfl, fun s h => ⟨exec_tlvget_of_ge, fun n hn => ?_⟩⟩
  rw [exec_tlvget, tlvgetBody, h.node_eq hn, ← wordOfTag_eq, ← wordOfId_eq]
  rfl

/-! ### TLVGETV -/

/-- Settles O27: on a primitive node TLVGETV is the output convention of the encoders at the node's value. -/
theorem tlvgetvAppendsValue : Obligations.TlvgetvAppendsValue := by
  unfold Obligations.TlvgetvAppendsValue
  refine ⟨rfl, fun s hm h => ?_⟩
  intro v
  rw [exec_tlvgetv, tlvgetvBody]
  split
  · next hge =>
    rw [State.node_of_ge hge]
    rfl
  · next hlt =>
    obtain ⟨n, hn⟩ := h.exists_node hlt
    have hv : v = n.value := by simp only [v, valueAt_of_getElem? hn, Option.getD_some]
    rw [h.node_eq hn, h.constructed_eq hn]
    cases hcons : n.body.isCons with
    | true =>
      simp only [hcons, if_true]
      rfl
    | false =>
      have hend := State.complete_emit hm h.cfg n.value
      simp only [hcons, hv, Option.some.injEq, Bool.false_eq_true, if_false]
      split_ifs at hend ⊢
      · rw [hend]
      · refine ⟨_, rfl, hend, ?_⟩
        obtain ⟨-, -, hr0, -⟩ := hend
        rw [hr0, length_value_of_prim h.lengths hn hcons, lengthAt_of_getElem? hn]

/-! ### TLVCLR -/

/-- Settles O28: with NCNT = 0 no register names a node. -/
theorem tlvclrFreesAll : Obligations.TlvclrFreesAll := by
  unfold Obligations.TlvclrFreesAll
  exact ⟨rfl, fun s => ⟨_, rfl, rfl, fun x => exec_tlvget_of_ge (Nat.zero_le _)⟩⟩

end Sys2Proof.Machine
end

section
/-! SUPPORT. TLVFIND and the commands that make a node (41_tlv_unit R147, R150, R151). -/

namespace Sys2Proof.Machine

theorem exec_tlvfind (s : State) : exec .tlvfind s = .next (s.complete (tlvfindBody s)) := rfl

theorem exec_tlvnewp (s : State) : exec .tlvnewp s = .next (s.complete (tlvnewpBody s)) := rfl

theorem exec_tlvnewc (s : State) : exec .tlvnewc s = .next (s.complete (tlvnewcBody s)) := rfl

/-! ### TLVFIND -/

/-- TLVFIND looks for the first node of a list that has the Tag, or for the first under the wildcard. -/
theorem findMatch_eq_find? {ns : List Node} (w : Word) {xs : List Nat} (hxs : ∀ c ∈ xs, c < ns.length) :
    findMatch ns w xs = xs.find? fun c => decide (2 ^ 31 ≤ w.toNat ∨ tagAt ns c = some (tagNamed w)) := by
  induction xs with
  | nil => rfl
  | cons c xs ih =>
    have hlt := hxs c List.mem_cons_self
    have hget := List.getElem?_eq_getElem hlt
    have hmatch : matchesWord w ns[c] = decide (2 ^ 31 ≤ w.toNat ∨ tagAt ns c = some (tagNamed w)) := by
      rw [Bool.eq_iff_iff, matchesWord, Bool.or_eq_true, wildcard_iff, decide_eq_true_eq, decide_eq_true_eq,
        tagAt_of_getElem? hget, tagOfWord_eq, Option.some.injEq]
    rw [findMatch, hget, List.find?_cons, ← hmatch, ← ih fun d hd => hxs d (List.mem_cons_of_mem _ hd)]
    cases hm : matchesWord w ns[c] <;> simp [hm]

/-- The children that TLVFIND looks at: all, or those after the one in A2. -/
def State.searched (s : State) : List Nat :=
  if s.a2 = noneWord then childrenOf s.nodes s.a0.toNat
  else childrenAfter (childrenOf s.nodes s.a0.toNat) s.a2.toNat

/-- TLVFIND past its tests. -/
theorem tlvfindBody_of_ok {s : State} (h : s.ArenaInv) (ha0 : ¬ s.ncnt.toNat ≤ s.a0.toNat)
    (ha2 : s.a2 = noneWord ∨ parentOf s.nodes s.a2.toNat = some s.a0.toNat) :
    tlvfindBody s = .ok (s.found (findMatch s.nodes s.a1 s.searched)) := by
  obtain ⟨n, hn⟩ := h.exists_node ha0
  rw [tlvfindBody, h.node_eq hn, State.searched, childrenOf_of_getElem? hn]
  by_cases hnone : s.a2 = noneWord
  · simp only [if_pos hnone]
  · have hparent := ha2.resolve_left hnone
    have hget := List.getElem?_eq_getElem (lt_length_of_parentOf hparent)
    simp only [if_neg hnone, h.node_eq hget]
    rw [if_pos (by rw [← parentOf_of_getElem? hget, hparent])]

/-- TLVFIND of an A2 that is no child of A0 is BadNode. -/
theorem tlvfindBody_of_badNode {s : State} (ha2 : s.a2 ≠ noneWord)
    (hbad : s.ncnt.toNat ≤ s.a2.toNat ∨ parentOf s.nodes s.a2.toNat ≠ some s.a0.toNat) :
    tlvfindBody s = .error .badNode := by
  unfold tlvfindBody
  split
  · next e he => rw [State.node_error he]
  · rw [if_neg ha2]
    split
    · next e he => rw [State.node_error he]
    · next after hafter =>
      obtain ⟨hlt, hget⟩ := State.node_ok.1 hafter
      rw [parentOf_of_getElem? hget] at hbad
      exact if_neg (hbad.resolve_left (Nat.not_le.2 hlt))

/-- Every child that TLVFIND looks at is a node. -/
theorem State.ArenaInv.searched_lt {s : State} (h : s.ArenaInv) : ∀ c ∈ s.searched, c < s.nodes.length := by
  intro c hc
  have hmem : c ∈ childrenOf s.nodes s.a0.toNat := by
    unfold State.searched at hc
    split at hc
    · exact hc
    · exact List.mem_of_mem_drop hc
  exact lt_length_of_parentOf ((h.linked.agree _ c).1 hmem)

/-- Settles O22: the tests in order, then the first match among the children that A2 leaves. -/
theorem tlvfindFindsFirstMatch : Obligations.TlvfindFindsFirstMatch := by
  unfold Obligations.TlvfindFindsFirstMatch
  refine ⟨rfl, fun s h => ?_⟩
  intro kids rest
  have hrest : rest = s.searched := rfl
  rw [exec_tlvfind]
  split_ifs with ha0 ha2
  · rw [tlvfindBody, State.node_of_ge ha0]
    rfl
  · obtain ⟨hgiven, hbad⟩ := ha2
    rw [tlvfindBody_of_badNode hgiven hbad]
    rfl
  · have hok : s.a2 = noneWord ∨ parentOf s.nodes s.a2.toNat = some s.a0.toNat := by
      by_contra hno
      exact ha2 ⟨fun hnone => hno (.inl hnone), .inr fun hparent => hno (.inr hparent)⟩
    rw [tlvfindBody_of_ok h ha0 hok, findMatch_eq_find? _ h.searched_lt, ← hrest]
    split <;> next hfound => rw [hfound]; rfl

/-! ### TLVNEWP and TLVNEWC -/

/-- The next value of NCNT (41_tlv_unit R150, R151). -/
theorem ofNat_toNat_add_one (w : Word) : BitVec.ofNat 32 (w.toNat + 1) = w + 1 :=
  BitVec.eq_of_toNat_eq (by simp)

/-- TLVNEWP takes a TagWord with W and the constructed flag clear. -/
theorem newpOperand_iff (w : Word) : wildcard w = true ∨ wordConstructed w = true ↔ 2 ^ 30 ≤ w.toNat := by
  have hlt : w.toNat < 2 ^ 32 := w.isLt
  rw [wildcard_iff, wordConstructed_iff]
  omega

/-- TLVNEWC takes a TagWord with W clear and the constructed flag set. -/
theorem newcOperand_iff (w : Word) :
    wildcard w = true ∨ wordConstructed w = false ↔ 2 ^ 31 ≤ w.toNat ∨ w.toNat < 2 ^ 30 := by
  have hlt : w.toNat < 2 ^ 32 := w.isLt
  rw [wildcard_iff, ← Bool.not_eq_true, wordConstructed_iff]
  omega

/-- The arena has no node to spare exactly when NCNT is `NODE_CAP`. -/
theorem State.ArenaInv.nodesFull_iff {s : State} (h : s.ArenaInv) :
    s.ncnt.toNat ≥ s.cfg.nodeCap ↔ s.ncnt.toNat = s.cfg.nodeCap := by
  have hcap := h.capacity
  have hncnt := h.ncnt
  omega

/-- Settles O24: the operand tests read off the number in A0, then the capacities, then the new root. -/
theorem newNodesAreRoots : Obligations.NewNodesAreRoots := by
  unfold Obligations.NewNodesAreRoots
  refine ⟨rfl, rfl, fun s h => ⟨?_, ?_⟩⟩
  · rw [exec_tlvnewp, tlvnewpBody]
    simp only [newpOperand_iff, h.nodesFull_iff, tagOfWord_eq, ofNat_toNat_add_one]
    split_ifs <;> rfl
  · rw [exec_tlvnewc, tlvnewcBody]
    simp only [newcOperand_iff, h.nodesFull_iff, tagOfWord_eq, ofNat_toNat_add_one]
    split_ifs
    · rfl
    · rfl
    · simp only [State.newRoot, Nat.add_zero, BitVec.ofNat_toNat, BitVec.setWidth_eq]
      rfl

end Sys2Proof.Machine
end

section
/-! SUPPORT. TLVAPPEND and TLVSETV, column by column (41_tlv_unit R148, R149, R152). -/

namespace Sys2Proof.Machine

theorem exec_tlvappend (s : State) : exec .tlvappend s = .next (s.complete (tlvappendBody s)) := rfl

theorem exec_tlvsetv (s : State) : exec .tlvsetv s = .next (s.complete (tlvsetvBody s)) := rfl

theorem tagAt_of_column {ns ns' : List Node} (h : ns'.map Node.tag = ns.map Node.tag) : tagAt ns' = tagAt ns := by
  funext x
  rw [tagAt, tagAt, ← List.getElem?_map, ← List.getElem?_map, h]

theorem valueAt_of_column {ns ns' : List Node} (h : ns'.map Node.value = ns.map Node.value) :
    valueAt ns' = valueAt ns := by
  funext x
  rw [valueAt, valueAt, ← List.getElem?_map, ← List.getElem?_map, h]

/-- The length of a constructed node is the sum of its children's sizes (10_state R39(c)). -/
theorem lengthAt_of_lengthsRight {ns : List Node} (hr : LengthsRight ns) {x : Nat} {n : Node} (hn : ns[x]? = some n)
    (hb : n.body.isCons = true) : lengthAt ns x = some (sizeSum ns (childrenOf ns x)) := by
  rw [lengthAt_of_getElem? hn, lengthsRight_iff.1 hr x n hn, childrenOf_of_getElem? hn]
  cases hk : n.body with
  | prim v => simp [Body.isCons, hk] at hb
  | cons kids => simp [Node.contentSize, Node.children, hk]

/-- `relength` at a node keeps the sizes of its children, which are not on its path up. -/
theorem sizeAt_relength_of_child {d : Nat} {ns : List Node} (h : Linked d ns) {x y : Nat}
    (hy : y ∈ childrenOf ns x) : sizeAt (relength ns x) y = sizeAt ns y := by
  obtain ⟨l, hl, -⟩ := h.paths x (lt_length_of_mem_childrenOf hy)
  have hfresh : y ∉ l := (List.nodup_cons.1 (IsPath.step ((h.agree x y).1 hy) hl).nodup).1
  rw [sizeAt, sizeAt, relength_of_notMem (by rwa [hl.pathUp_eq hl.length_le])]

/-! ### TLVAPPEND -/

/-- `c` is a root that TLVAPPEND may put under `p` (41_tlv_unit R149). -/
structure MayAppend (d : Nat) (ns : List Node) (p c : Nat) : Prop where
  parent_lt : p < ns.length
  child_lt : c < ns.length
  root : parentOf ns c = none
  otherTree : rootOf ns p ≠ c
  depth : depthOf ns p + heightOf ns c ≤ d

theorem MayAppend.linked_linkChild {d : Nat} {ns : List Node} {p c : Nat} (hm : MayAppend d ns p c)
    (h : Linked d ns) : Linked d (linkChild ns p c) :=
  (newLink_linkChild hm.parent_lt hm.child_lt).linked h hm.parent_lt hm.root hm.otherTree hm.depth

theorem MayAppend.lengthsRight {d : Nat} {ns : List Node} {p c : Nat} (hm : MayAppend d ns p c) (h : Linked d ns)
    (hr : LengthsRight ns) : LengthsRight (appendChild ns p c) :=
  lengthsRight_appendChild h hm.parent_lt hm.child_lt hm.root hm.otherTree hm.depth hr

theorem parentOf_appendChild {ns : List Node} {p c : Nat} (hp : p < ns.length) (hc : c < ns.length) (y : Nat) :
    parentOf (appendChild ns p c) y = if y = c then some p else parentOf ns y := by
  rw [appendChild_eq, parentOf_relength, (newLink_linkChild hp hc).parent]

theorem childrenOf_appendChild {ns : List Node} {p c : Nat} (hp : p < ns.length) (hc : c < ns.length) (y : Nat) :
    childrenOf (appendChild ns p c) y = if y = p then childrenOf ns p ++ [c] else childrenOf ns y := by
  rw [appendChild_eq, childrenOf_relength, (newLink_linkChild hp hc).children]

theorem tagAt_appendChild (ns : List Node) (p c : Nat) : tagAt (appendChild ns p c) = tagAt ns :=
  tagAt_of_column (map_appendChild _ (fun _ => rfl) (fun _ _ => rfl) fun _ => rfl)

/-- TLVAPPEND changes no value: the node it gives a child is constructed. -/
theorem valueAt_appendChild {ns : List Node} {p c : Nat} {n : Node} (hn : ns[p]? = some n)
    (hb : n.body.isCons = true) : valueAt (appendChild ns p c) = valueAt ns := by
  refine valueAt_of_column (map_appendChild _ (fun _ => rfl) (fun m hm => ?_) fun _ => rfl)
  rw [hn] at hm
  cases hm
  rw [Node.value_of_isCons hb]
  rfl

/-- The node that TLVAPPEND gives a child grows by the child's size (41_tlv_unit R149). -/
theorem lengthAt_appendChild {d : Nat} {ns : List Node} {p c : Nat} (h : Linked d ns) (hr : LengthsRight ns)
    (hm : MayAppend d ns p c) {n : Node} (hn : ns[p]? = some n) (hb : n.body.isCons = true) :
    lengthAt (appendChild ns p c) p = (lengthAt ns p).map (· + sizeAt ns c) := by
  have hlink := newLink_linkChild hm.parent_lt hm.child_lt
  have hkids : childrenOf (appendChild ns p c) p = childrenOf ns p ++ [c] := by
    rw [childrenOf_appendChild hm.parent_lt hm.child_lt, if_pos rfl]
  have hsize : ∀ y ∈ childrenOf ns p ++ [c], sizeAt (appendChild ns p c) y = sizeAt ns y := fun y hy => by
    rw [appendChild_eq, sizeAt_relength_of_child (hm.linked_linkChild h) (by rwa [hlink.children, if_pos rfl]),
      sizeAt_of_column (map_linkChild _ (fun _ _ => rfl) fun _ => rfl)]
  obtain ⟨m, hget⟩ : ∃ m, (appendChild ns p c)[p]? = some m :=
    ⟨_, List.getElem?_eq_getElem (by simpa using hm.parent_lt)⟩
  have hcons : m.body.isCons = true :=
    isCons_of_mem_children (c := c) (by rw [← childrenOf_of_getElem? hget, hkids]; simp)
  rw [lengthAt_of_lengthsRight (hm.lengthsRight h hr) hget hcons, hkids, sizeSum_congr hsize,
    lengthAt_of_lengthsRight hr hn hb]
  simp [sizeSum]

/-- TLVAPPEND of an id that names no node is BadNode. -/
theorem tlvappendBody_of_ge {s : State} (h : s.ncnt.toNat ≤ s.a0.toNat ∨ s.ncnt.toNat ≤ s.a1.toNat) :
    tlvappendBody s = .error .badNode := by
  unfold tlvappendBody
  split
  · next hp hc =>
    obtain ⟨hp, -⟩ := State.node_ok.1 hp
    obtain ⟨hc, -⟩ := State.node_ok.1 hc
    omega
  · rfl

/-- Settles O23: past the tests the arena is `appendChild`, whose columns the lemmas above give. -/
theorem tlvappendLinksChild : Obligations.TlvappendLinksChild := by
  unfold Obligations.TlvappendLinksChild
  refine ⟨rfl, fun s h => ?_⟩
  intro p c
  rw [exec_tlvappend]
  split
  · next hge =>
    rw [tlvappendBody_of_ge hge]
    rfl
  · next hlt =>
    obtain ⟨hp, hc⟩ := not_or.1 hlt
    obtain ⟨n, hn⟩ := h.exists_node hp
    obtain ⟨m, hm⟩ := h.exists_node hc
    rw [tlvappendBody, h.node_eq hn, h.node_eq hm, h.constructed_eq hn, parentOf_of_getElem? hm]
    simp only [Option.some.injEq, ite_or]
    split_ifs with hcons hparent hself hdepth
    · rfl
    · rfl
    · rfl
    · rfl
    · have hb : n.body.isCons = true := by simpa using hcons
      have hmay : MayAppend s.cfg.depthMax s.nodes p c :=
        { parent_lt := (List.getElem?_eq_some_iff.1 hn).1
          child_lt := (List.getElem?_eq_some_iff.1 hm).1
          root := by rw [parentOf_of_getElem? hm]; exact not_not.1 hparent
          otherTree := Ne.symm hself
          depth := Nat.le_of_not_lt hdepth }
      exact ⟨_, rfl, length_appendChild _ _ _, congrFun (tagAt_appendChild _ _ _),
        congrFun (valueAt_appendChild hn hb), parentOf_appendChild hmay.parent_lt hmay.child_lt,
        childrenOf_appendChild hmay.parent_lt hmay.child_lt, hmay.lengthsRight h.linked h.lengths,
        lengthAt_appendChild h.linked h.lengths hmay hn hb⟩

/-! ### TLVSETV -/

theorem parentOf_setValue (ns : List Node) (x : Nat) (v : List Byte) : parentOf (setValue ns x v) = parentOf ns := by
  rw [parentOf_of_column (map_setValue Node.parent (fun _ => rfl) ns x v), parentOf_withValue]

theorem tagAt_setValue (ns : List Node) (x : Nat) (v : List Byte) : tagAt (setValue ns x v) = tagAt ns := by
  refine tagAt_of_column ?_
  rw [map_setValue _ fun _ => rfl]
  exact map_updateNode _ fun _ _ => rfl

/-- TLVSETV changes no child list: the node it writes is primitive. -/
theorem childrenOf_setValue {ns : List Node} {x : Nat} {n : Node} (hn : ns[x]? = some n)
    (hb : n.body.isCons = false) (v : List Byte) : childrenOf (setValue ns x v) = childrenOf ns := by
  refine childrenOf_of_column ?_
  rw [map_setValue _ fun _ => rfl]
  exact map_updateNode _ (children_withValue hn hb v)

theorem valueAt_setValue {ns : List Node} {x : Nat} (hx : x < ns.length) (v : List Byte) (y : Nat) :
    valueAt (setValue ns x v) y = if y = x then some v else valueAt ns y := by
  rw [valueAt_of_column (map_setValue _ (fun _ => rfl) ns x v), valueAt, valueAt, getElem?_updateNode]
  split
  · next hyx => simp [hyx, List.getElem?_eq_getElem hx]
  · rfl

/-- The node that TLVSETV writes has the length of its new value: its body is that value, and all lengths are
right. -/
theorem lengthAt_setValue {ns : List Node} {x : Nat} (hx : x < ns.length) {v : List Byte}
    (hr : LengthsRight (setValue ns x v)) : lengthAt (setValue ns x v) x = some v.length := by
  have hget := List.getElem?_eq_getElem (show x < (setValue ns x v).length by simpa using hx)
  have hbody : (setValue ns x v)[x]?.map Node.body = some (.prim v) := by
    rw [← List.getElem?_map, map_setValue _ fun _ => rfl, List.getElem?_map, getElem?_updateNode, if_pos rfl,
      List.getElem?_eq_getElem hx]
    rfl
  rw [hget, Option.map_some, Option.some.injEq] at hbody
  rw [lengthAt_of_getElem? hget, lengthsRight_iff.1 hr x _ hget, Node.contentSize, hbody]

/-- Settles O25: past the tests the arena is `setValue`, whose columns the lemmas above give. -/
theorem tlvsetvReplacesValue : Obligations.TlvsetvReplacesValue := by
  unfold Obligations.TlvsetvReplacesValue
  refine ⟨rfl, fun s h => ?_⟩
  intro x old
  rw [exec_tlvsetv, tlvsetvBody]
  split
  · next hge =>
    rw [State.node_of_ge hge]
    rfl
  · next hlt =>
    obtain ⟨n, hn⟩ := h.exists_node hlt
    have hold : old = n.length := by simp only [old, x, lengthAt_of_getElem? hn, Option.getD_some]
    have hx : x < s.nodes.length := (List.getElem?_eq_some_iff.1 hn).1
    rw [h.node_eq hn, h.constructed_eq hn, hold]
    simp only [Option.some.injEq]
    split_ifs with hcons hrange hfull
    · rfl
    · rfl
    · rfl
    · have hb : n.body.isCons = false := by simpa using hcons
      have hright := lengthsRight_setValue hn hb h.linked h.lengths (s.tb.readRange s.a1.toNat s.a2.toNat)
      refine ⟨_, rfl, length_setValue _ _ _, congrFun (tagAt_setValue _ _ _), congrFun (parentOf_setValue _ _ _),
        congrFun (childrenOf_setValue hn hb _), valueAt_setValue hx _, ?_, hright⟩
      rw [lengthAt_setValue hx hright, Memory.length_readRange]

end Sys2Proof.Machine
end

section
/-! SUPPORT. Decoding what was encoded: tags, lengths and whole trees (30_encoding R85 to R90, 41_tlv_unit R141). -/

namespace Sys2Proof.Machine

/-! ### Tags -/

/-- A continuation octet read back: its group in bits 6 to 0, the flag in bit 7 (30_encoding R84). -/
theorem tagGroup_fields : ∀ (more : Bool) (g : BitVec 7),
    (BitVec.ofBool more ++ g : Byte).extractLsb' 0 7 = g ∧ (BitVec.ofBool more ++ g : Byte).getLsbD 7 = more := by
  decide

/-- Groups taken off the front of a number give the number back, after the groups whose number is `acc`. -/
theorem tagNumber_tagGroups {k acc n : Nat} (x : List Byte) (h : acc * 128 ^ (k + 1) + n % 128 ^ (k + 1) < 2 ^ 28) :
    tagNumber acc (tagGroups (k + 1) n ++ x) = .ok (acc * 128 ^ (k + 1) + n % 128 ^ (k + 1), x) := by
  induction k generalizing acc with
  | zero =>
    obtain ⟨hlow, hmore⟩ := tagGroup_fields (decide (0 < 0)) (BitVec.ofNat 7 (n >>> (7 * 0)))
    rw [tagGroups, List.cons_append, tagNumber, if_neg (by omega), hlow, hmore]
    simp [tagGroups]
  | succ k ih =>
    have hsplit : acc * 128 ^ (k + 2) + n % 128 ^ (k + 2) =
        (acc * 128 + n / 128 ^ (k + 1) % 128) * 128 ^ (k + 1) + n % 128 ^ (k + 1) := by
      rw [Nat.mod_pow_succ (b := 128) (k := k + 1)]
      ring
    have hbound : ¬ 2 ^ 21 ≤ acc := by
      have : acc * 128 ≤ acc * 128 ^ (k + 1 + 1) := Nat.mul_le_mul_left _ (Nat.le_self_pow (by omega) _)
      omega
    obtain ⟨hlow, hmore⟩ := tagGroup_fields (decide (0 < k + 1)) (BitVec.ofNat 7 (n >>> (7 * (k + 1))))
    rw [hsplit] at h ⊢
    rw [tagGroups, List.cons_append, tagNumber, if_neg hbound, hlow, hmore, ← ih h, BitVec.toNat_ofNat,
      Nat.shiftRight_eq_div_pow, pow_mul, if_pos (by simp)]
    norm_num

/-- A long-form number fits the groups that `tag_size` gives it, one to four of them (30_encoding R86). -/
theorem exists_tagSize {n : Nat} (hlong : ¬ n < 0x1F) (hn : n < 2 ^ 28) :
    ∃ k, tagSize n - 1 = k + 1 ∧ n < 128 ^ (k + 1) := by
  unfold tagSize
  rw [if_neg hlong]
  split_ifs
  · exact ⟨0, rfl, by omega⟩
  · exact ⟨1, rfl, by omega⟩
  · exact ⟨2, rfl, by omega⟩
  · exact ⟨3, rfl, by omega⟩

/-- The fields of the first tag octet (30_encoding R83). -/
theorem tagFirst_fields (t : Tag) (low : BitVec 5) :
    (tagLead t ++ low : Byte).extractLsb' 0 5 = low ∧ (tagLead t ++ low : Byte).extractLsb' 6 2 = t.cls ∧
      (tagLead t ++ low : Byte).getLsbD 5 = t.constructed := by
  obtain ⟨number, cls, constructed⟩ := t
  revert low cls constructed
  simp only [tagLead]
  decide

/-- `tag_decode` inverts `tag_encode`, whatever follows (30_encoding R85, R86). -/
theorem tagDecode_tagEncode (t : Tag) (x : List Byte) : tagDecode (tagEncode t ++ x) = .ok (t, x) := by
  have hn : t.number.toNat < 2 ^ 28 := t.number.isLt
  unfold tagEncode
  split
  · next hshort =>
    obtain ⟨hlow, hcls, hcons⟩ := tagFirst_fields t (t.number.setWidth 5)
    have hnumber : (t.number.setWidth 5).setWidth 28 = t.number :=
      BitVec.eq_of_toNat_eq (by simp; omega)
    have hne : t.number.setWidth 5 ≠ 0x1F#5 := fun heq => by
      have := congrArg BitVec.toNat heq
      simp at this
      omega
    rw [List.singleton_append, tagDecode, hlow, if_neg hne, hcls, hcons, hnumber]
  · next hlong =>
    obtain ⟨hlow, hcls, hcons⟩ := tagFirst_fields t 0x1F#5
    obtain ⟨k, hk, hfits⟩ := exists_tagSize hlong hn
    have hgroups := tagNumber_tagGroups (acc := 0) (k := k) (n := t.number.toNat) x
    rw [Nat.mod_eq_of_lt hfits, Nat.zero_mul, Nat.zero_add] at hgroups
    rw [List.cons_append, tagDecode, hlow, if_pos rfl, hk, hgroups hn, hcls, hcons]
    simp

/-! ### Lengths -/

theorem bigEndian_append_lenOctets (k l : Nat) (as : List Byte) :
    bigEndian (as ++ lenOctets k l) = bigEndian as * 256 ^ k + l % 256 ^ k := by
  induction k generalizing as with
  | zero => simp [lenOctets, Nat.mod_one]
  | succ k ih =>
    rw [lenOctets, List.append_cons, ih, bigEndian_append, Nat.mod_pow_succ (b := 256) (k := k),
      BitVec.toNat_ofNat, Nat.shiftRight_eq_div_pow, pow_mul]
    norm_num
    ring

/-- The first octet of a long form says how many octets follow (30_encoding R87, R88). -/
theorem lenFirst_fields : ∀ k ≤ 4, (0x80#8 ||| BitVec.ofNat 8 k).getLsbD 7 = true ∧
    ((0x80#8 ||| BitVec.ofNat 8 k).extractLsb' 0 7).toNat = k := by
  decide

/-- A long-form length fits the octets that `len_size` gives it, one to four of them (30_encoding R88). -/
theorem lenSize_fits {l : Nat} (hlong : ¬ l < 0x80) (hl : l < 2 ^ 32) :
    1 ≤ lenSize l - 1 ∧ lenSize l - 1 ≤ 4 ∧ l < 256 ^ (lenSize l - 1) := by
  unfold lenSize
  rw [if_neg hlong]
  split_ifs <;> norm_num <;> omega

/-- `len_decode` inverts `len_encode` below 2^32, whatever follows (30_encoding R87, R88). -/
theorem lenDecode_lenEncode {l : Nat} (hl : l < 2 ^ 32) (x : List Byte) :
    lenDecode (lenEncode l ++ x) = .ok (l, x) := by
  unfold lenEncode
  split
  · next hshort =>
    have hto : (BitVec.ofNat 8 l).toNat = l := by
      rw [BitVec.toNat_ofNat]
      omega
    rw [List.singleton_append, lenDecode, if_neg (by rw [getLsbD_seven_iff, hto]; omega), hto]
  · next hlong =>
    obtain ⟨hpos, hle, hfits⟩ := lenSize_fits hlong hl
    obtain ⟨hbit, hlow⟩ := lenFirst_fields _ hle
    have hvalue := bigEndian_append_lenOctets (lenSize l - 1) l []
    have hlen := length_lenOctets (lenSize l - 1) l
    rw [Nat.mod_eq_of_lt hfits, List.nil_append] at hvalue
    rw [List.cons_append, lenDecode, if_pos hbit]
    simp only [hlow, List.take_left' hlen, List.drop_left' hlen, List.length_append, hlen, hvalue]
    rw [if_neg (by omega), if_neg (by omega)]
    simp [bigEndian]

/-! ### Trees -/

mutual
/-- The encoding of a tree has its `size` (30_encoding R90). -/
theorem Tree.length_enc : ∀ t : Tree, t.enc.length = t.size
  | .prim t v => by simp [Tree.enc, Tree.size, length_tagEncode, length_lenEncode, Nat.add_assoc]
  | .cons t kids => by
    simp [Tree.enc, Tree.size, length_tagEncode, length_lenEncode, Tree.length_encList kids, Nat.add_assoc]
/-- The same for a list of trees. -/
theorem Tree.length_encList : ∀ ts : List Tree, (Tree.encList ts).length = Tree.sizeList ts
  | [] => rfl
  | t :: ts => by simp [Tree.encList, Tree.sizeList, Tree.length_enc t, Tree.length_encList ts]
end

/-- A tree takes at least its tag octet. -/
theorem Tree.enc_ne_nil (t : Tree) : t.enc ≠ [] := by
  have hpos := tagSize_pos t.tag.number.toNat
  have hsize := t.size_eq
  intro h
  have := t.length_enc
  rw [h, List.length_nil] at this
  omega

/-- What `parse_node` makes of a tag, a length and as many octets of content (41_tlv_unit R141). -/
theorem parseNode_header {levels : Nat} (t : Tag) {content : List Byte} (hl : content.length < 2 ^ 32)
    (x : List Byte) :
    parseNode (levels + 1) (tagEncode t ++ lenEncode content.length ++ content ++ x) =
      if t.constructed then
        (parseKids (parseNode levels) content.length content).map fun ts => (.cons t ts, x)
      else .ok (.prim t content, x) := by
  rw [List.append_assoc, List.append_assoc, parseNode, tagDecode_tagEncode]
  simp only [lenDecode_lenEncode hl, List.take_left, List.drop_left]
  rw [if_neg (by simp)]
  split
  · cases parseKids (parseNode levels) content.length content <;> rfl
  · rfl

mutual
/-- `parse_node` inverts `enc` on every tree that fits, whatever follows (41_tlv_unit R141, R146). -/
theorem parseNode_enc : ∀ (t : Tree) {levels : Nat} (x : List Byte), t.fits levels = true →
    parseNode levels (t.enc ++ x) = .ok (t, x)
  | t, 0, _, h => by cases t <;> simp [Tree.fits] at h
  | .prim t v, levels + 1, x, h => by
    simp only [Tree.fits, Bool.and_eq_true, Bool.not_eq_true', decide_eq_true_eq] at h
    obtain ⟨hcons, hlen⟩ := h
    rw [Tree.enc, parseNode_header t hlen, hcons]
    rfl
  | .cons t kids, levels + 1, x, h => by
    simp only [Tree.fits, Bool.and_eq_true, decide_eq_true_eq] at h
    obtain ⟨⟨hcons, hlen⟩, hkids⟩ := h
    rw [← Tree.length_encList] at hlen
    rw [Tree.enc, ← Tree.length_encList, parseNode_header t hlen, hcons, parseKids_encList kids hkids le_rfl]
    rfl
/-- The loop over the children inverts the concatenation of their encodings. -/
theorem parseKids_encList : ∀ (ts : List Tree) {levels fuel : Nat}, Tree.fitsList levels ts = true →
    (Tree.encList ts).length ≤ fuel → parseKids (parseNode levels) fuel (Tree.encList ts) = .ok ts
  | [], _, _, _, _ => by simp [Tree.encList, parseKids]
  | t :: ts, levels, fuel, h, hfuel => by
    simp only [Tree.fitsList, Bool.and_eq_true] at h
    obtain ⟨ht, hts⟩ := h
    have hhead := parseNode_enc t (Tree.encList ts) ht
    obtain ⟨b, w, hw⟩ := List.exists_cons_of_ne_nil t.enc_ne_nil
    simp only [Tree.encList, hw, List.cons_append, List.length_cons, List.length_append] at hhead hfuel ⊢
    obtain ⟨fuel, rfl⟩ := Nat.exists_eq_add_of_le' (Nat.le_trans (Nat.le_add_left 1 _) hfuel)
    rw [parseKids, hhead]
    simp only [parseKids_encList ts hts (fuel := fuel) (by omega)]
end

end Sys2Proof.Machine
end

section
/-! SUPPORT. Walks down the arena: that the bound of log entry 12 is never reached, and the tree that hangs under a node
(30_encoding R90, 41_tlv_unit R155). -/

namespace Sys2Proof.Machine

/-! ### Walks down -/

/-- Induction over a forest from the children up. -/
theorem Linked.induction {d : Nat} {ns : List Node} (h : Linked d ns) {P : Nat → Prop}
    (step : ∀ x n, ns[x]? = some n → (∀ c ∈ n.children, P c) → P x) {x : Nat} (hx : x < ns.length) : P x := by
  have hdown : ∀ k x l, IsPath ns x l → ns.length < l.length + k → P x := by
    intro k
    induction k with
    | zero => exact fun x l hl hlt => absurd hl.length_le (by omega)
    | succ k ih =>
      intro x l hl hlt
      have hget := List.getElem?_eq_getElem hl.lt_length
      refine step x _ hget fun c hc => ih c (c :: l) (.step ?_ hl) (by simp only [List.length_cons]; omega)
      rwa [← h.agree, childrenOf_of_getElem? hget]
  obtain ⟨l, hl, -⟩ := h.paths x hx
  exact hdown (ns.length + 1) x l hl (by omega)

/-- A walk that makes its answer at a node from its answers at the children, and whose bound is the number of nodes,
meets its equation with the same bound at every level. -/
theorem Linked.walk_eq {α : Type} {d : Nat} {ns : List Node} (h : Linked d ns) {walk : Nat → Nat → α}
    {make : Node → List α → α}
    (hwalk : ∀ k x n, ns[x]? = some n → walk (k + 1) x = make n (n.children.map (walk k))) {x : Nat} {n : Node}
    (hn : ns[x]? = some n) : walk ns.length x = make n (n.children.map (walk ns.length)) := by
  have hstable : ∀ k x l, IsPath ns x l → ns.length < l.length + k → walk k x = walk (k + 1) x := by
    intro k
    induction k with
    | zero => exact fun x l hl hlt => absurd hl.length_le (by omega)
    | succ k ih =>
      intro x l hl hlt
      have hget := List.getElem?_eq_getElem hl.lt_length
      rw [hwalk _ x _ hget, hwalk _ x _ hget]
      refine congrArg _ (List.map_congr_left fun c hc => ih c (c :: l) (.step ?_ hl) ?_)
      · rwa [← h.agree, childrenOf_of_getElem? hget]
      · simp only [List.length_cons]
        omega
  obtain ⟨l, hl, -⟩ := h.paths x (List.getElem?_eq_some_iff.1 hn).1
  have hpos : 0 < l.length := List.length_pos_iff.2 hl.ne_nil
  rw [← hwalk _ x n hn]
  exact hstable _ x l hl (by omega)

/-! ### `enc` and the tree of a node -/

/-- `enc` of a node, given that of its children (30_encoding R90). -/
def Node.encWith (n : Node) (kids : List (List Byte)) : List Byte :=
  tagEncode n.tag ++ lenEncode n.length ++
    match n.body with
    | .prim v => v
    | .cons _ => kids.flatten

/-- The tree of a node, given those of its children. -/
def Node.treeWith (n : Node) (kids : List Tree) : Tree :=
  match n.body with
  | .prim v => .prim n.tag v
  | .cons _ => .cons n.tag kids

/-- The tree that hangs under a node. -/
def treeOf (ns : List Node) (x : Nat) : Tree := treeAt ns.length ns x

section
variable {d : Nat} {ns : List Node} (h : Linked d ns)
include h

theorem encNode_eq {x : Nat} {n : Node} (hn : ns[x]? = some n) :
    encNode ns.length ns x = n.encWith (n.children.map (encNode ns.length ns)) := by
  refine h.walk_eq (walk := fun k => encNode k ns) (fun k y m hm => ?_) hn
  cases hb : m.body <;> simp [encNode, Node.encWith, hm, hb, Node.children, List.flatMap]

theorem treeOf_eq {x : Nat} {n : Node} (hn : ns[x]? = some n) :
    treeOf ns x = n.treeWith (n.children.map (treeOf ns)) := by
  refine h.walk_eq (walk := fun k => treeAt k ns) (fun k y m hm => ?_) hn
  cases hb : m.body <;> simp [treeAt, Node.treeWith, hm, hb, Node.children]

end

/-! ### What a node and its tree share -/

theorem sizeList_map {ns : List Node} {f : Nat → Tree} {xs : List Nat} (hxs : ∀ c ∈ xs, (f c).size = sizeAt ns c) :
    Tree.sizeList (xs.map f) = sizeSum ns xs := by
  induction xs with
  | nil => rfl
  | cons c xs ih =>
    have htail := ih fun d hd => hxs d (List.mem_cons_of_mem _ hd)
    simp only [sizeSum] at htail
    simp [Tree.sizeList, sizeSum, hxs c List.mem_cons_self, htail]

theorem encList_map {f : Nat → Tree} {enc : Nat → List Byte} {xs : List Nat} (hxs : ∀ c ∈ xs, (f c).enc = enc c) :
    Tree.encList (xs.map f) = (xs.map enc).flatten := by
  induction xs with
  | nil => rfl
  | cons c xs ih =>
    simp [Tree.encList, hxs c List.mem_cons_self, ih fun d hd => hxs d (List.mem_cons_of_mem _ hd)]

section
variable {d : Nat} {ns : List Node} (h : Linked d ns) (hr : LengthsRight ns)
include h hr

/-- The tree of a node has the node's size, which its length is right for (10_state R39(c)). -/
theorem size_treeOf {x : Nat} (hx : x < ns.length) : (treeOf ns x).size = sizeAt ns x := by
  refine h.induction (P := fun x => (treeOf ns x).size = sizeAt ns x) (fun x n hn ih => ?_) hx
  rw [treeOf_eq h hn, sizeAt_of_getElem? hn, Node.size, lengthsRight_iff.1 hr x n hn]
  cases hb : n.body with
  | prim v => simp only [Node.treeWith, Node.contentSize, hb, Tree.size]
  | cons kids =>
    simp only [Node.children, hb] at ih
    simp only [Node.treeWith, Node.contentSize, Node.children, hb, Tree.size, sizeList_map ih]

/-- `enc` of a node is the encoding of its tree (30_encoding R90). -/
theorem enc_treeOf {x : Nat} (hx : x < ns.length) : (treeOf ns x).enc = encNode ns.length ns x := by
  refine h.induction (P := fun x => (treeOf ns x).enc = encNode ns.length ns x) (fun x n hn ih => ?_) hx
  rw [treeOf_eq h hn, encNode_eq h hn, Node.encWith, lengthsRight_iff.1 hr x n hn]
  cases hb : n.body with
  | prim v => simp only [Node.treeWith, Node.contentSize, hb, Tree.enc]
  | cons kids =>
    have hsizes : Tree.sizeList (kids.map (treeOf ns)) = sizeSum ns kids := sizeList_map fun c hc =>
      size_treeOf h hr (lt_length_of_parentOf ((h.agree x c).1 (by
        rwa [childrenOf_of_getElem? hn, Node.children, hb])))
    simp only [Node.children, hb] at ih
    simp only [Node.treeWith, Node.contentSize, Node.children, hb, Tree.enc, hsizes, encList_map ih]

/-- `enc` has `size` octets (30_encoding R90). -/
theorem length_encNode {x : Nat} (hx : x < ns.length) : (encNode ns.length ns x).length = sizeAt ns x := by
  rw [← enc_treeOf h hr hx, Tree.length_enc, size_treeOf h hr hx]

end

theorem shapedList_map {f : Nat → Tree} {levels : Nat} {xs : List Nat} (hxs : ∀ c ∈ xs, (f c).Shaped levels) :
    Tree.ShapedList levels (xs.map f) := by
  induction xs with
  | nil => trivial
  | cons c xs ih => exact ⟨hxs c List.mem_cons_self, ih fun d hd => hxs d (List.mem_cons_of_mem _ hd)⟩

/-- A tree under a node `l.length` deep has at most the levels that are left (10_state R39(a), (e)). -/
theorem shaped_treeOf {d : Nat} {ns : List Node} (h : Linked d ns)
    (hk : ∀ n ∈ ns, n.body.isCons = n.tag.constructed) {x : Nat} (hx : x < ns.length) :
    ∀ l levels, IsPath ns x l → d < l.length + levels → (treeOf ns x).Shaped levels := by
  refine h.induction (P := fun x => ∀ l levels, IsPath ns x l → d < l.length + levels →
    (treeOf ns x).Shaped levels) (fun x n hn ih l levels hl hd => ?_) hx
  obtain ⟨k, rfl⟩ : ∃ k, levels = k + 1 := by
    obtain ⟨l', hl', hle⟩ := h.paths x hl.lt_length
    rw [hl.unique hl'] at hd
    exact ⟨levels - 1, by omega⟩
  have hkind := hk n (List.mem_of_getElem? hn)
  rw [treeOf_eq h hn]
  cases hb : n.body with
  | prim v => simpa [Node.treeWith, hb, Tree.Shaped, Body.isCons] using hkind.symm
  | cons kids =>
    have hkids : ∀ c ∈ kids, (treeOf ns c).Shaped k := fun c hc =>
      have hc : c ∈ n.children := by rwa [Node.children, hb]
      ih c hc (c :: l) k (.step ((h.agree x c).1 (childrenOf_of_getElem? hn ▸ hc)) hl)
        (by simp only [List.length_cons]; omega)
    simp only [Node.treeWith, Node.children, hb, Tree.Shaped]
    exact ⟨by simpa [hb, Body.isCons] using hkind.symm, shapedList_map hkids⟩

end Sys2Proof.Machine
end

section
/-! SUPPORT. TLVSER, and the parse of what it appended (41_tlv_unit R145, R146, R155). -/

namespace Sys2Proof.Machine

theorem exec_tlvser (s : State) : exec .tlvser s = .next (s.complete (tlvserBody s)) := rfl

theorem exec_tlvparseat (s : State) : exec .tlvparseat s = .next (s.complete (parseAtBody s s.a0.toNat)) := rfl

/-! ### TLVSER -/

/-- Settles O20: TLVSER is the output convention of the encoders at `enc`, which has `size` octets. -/
theorem tlvserAppendsEncoding : Obligations.TlvserAppendsEncoding := by
  unfold Obligations.TlvserAppendsEncoding
  refine ⟨rfl, fun s hm h => ?_⟩
  intro bs
  rw [exec_tlvser, tlvserBody]
  split
  · next hge =>
    rw [State.node_of_ge hge]
    rfl
  · next hlt =>
    obtain ⟨n, hn⟩ := h.exists_node hlt
    have hend := State.complete_emit hm h.cfg bs
    rw [h.node_eq hn]
    simp only
    split_ifs at hend ⊢
    · rw [hend]
    · refine ⟨_, rfl, hend, ?_⟩
      obtain ⟨-, -, hr0, -⟩ := hend
      rw [hr0, length_encNode h.linked h.lengths (List.getElem?_eq_some_iff.1 hn).1]

/-- A TLVSER that ended without error had a node to encode. -/
theorem appended_of_tlvser {s t : State} (hm : s.MemoryInv) (h : s.ArenaInv) (ht : exec .tlvser s = .next t)
    (hdone : t.status = 2#32) :
    s.a0.toNat < s.nodes.length ∧ Appended s t (encNode s.nodes.length s.nodes s.a0.toNat) := by
  have hraised : ∀ code, (Host.Outcome.next t : Host.Outcome State Fault Refusal) ≠ .next (raised s code) :=
    fun code heq => by
      cases heq
      exact statusDone_ne_errf hdone.symm
  have hser := tlvserAppendsEncoding.2 s hm h
  rw [ht] at hser
  simp only at hser
  split_ifs at hser with hge hfull
  · exact absurd hser (hraised _)
  · exact absurd hser (hraised _)
  · obtain ⟨t', heq, happ, -⟩ := hser
    cases heq
    exact ⟨h.ncnt ▸ Nat.lt_of_not_le hge, happ⟩

/-! ### Parsing it back -/

/-- Octets that were stored are read back. -/
theorem readRange_of_stored {m m' : Memory} {off : Nat} {bs : List Byte} (h : Stored m m' off bs) :
    m'.readRange off bs.length = bs := by
  refine List.ext_getElem (by simp) fun i _ hi => ?_
  have hread := h (off + i)
  rw [if_pos (by omega), Nat.add_sub_cancel_left, List.getD_eq_getElem _ _ hi] at hread
  simpa [Memory.readRange] using hread

/-- What a decoder sees at the old TLEN after an encoder has appended. -/
theorem Appended.tbFrom {s t : State} {bs : List Byte} (h : Appended s t bs) : t.tbFrom s.tlen.toNat = bs := by
  obtain ⟨hstored, htlen, -, -⟩ := h
  rw [State.tbFrom_eq, htlen, Nat.add_sub_cancel_left, readRange_of_stored hstored]

mutual
/-- A tree of a given shape whose encoding has fewer than 2^32 octets fits. -/
theorem Tree.fits_of_shaped : ∀ (t : Tree) {levels : Nat}, t.Shaped levels → t.size < 2 ^ 32 →
    t.fits levels = true
  | t, 0, h, _ => by cases t <;> simp [Tree.Shaped] at h
  | .prim t v, levels + 1, h, hsize => by
    simp only [Tree.Shaped, Tree.size] at h hsize
    simp only [Tree.fits, h, Bool.not_false, Bool.true_and, decide_eq_true_eq]
    omega
  | .cons t kids, levels + 1, h, hsize => by
    obtain ⟨hcons, hkids⟩ := h
    simp only [Tree.size] at hsize
    simp only [Tree.fits, hcons, Tree.fitsList_of_shaped kids hkids (by omega), Bool.and_true, Bool.true_and,
      decide_eq_true_eq]
    omega
/-- The same for a list of trees. -/
theorem Tree.fitsList_of_shaped : ∀ (ts : List Tree) {levels : Nat}, Tree.ShapedList levels ts →
    Tree.sizeList ts < 2 ^ 32 → Tree.fitsList levels ts = true
  | [], _, _, _ => by simp [Tree.fitsList]
  | t :: ts, levels, h, hsize => by
    obtain ⟨ht, hts⟩ := h
    simp only [Tree.sizeList] at hsize
    simp only [Tree.fitsList, Tree.fits_of_shaped t ht (by omega), Tree.fitsList_of_shaped ts hts (by omega),
      Bool.and_true]
end

/-- The tree of a node has the shape that `DEPTH_MAX` allows (10_state R39(a), (e)). -/
theorem State.ArenaInv.shaped_treeOf {s : State} (h : s.ArenaInv) {x : Nat} (hx : x < s.nodes.length) :
    (treeOf s.nodes x).Shaped s.cfg.depthMax := by
  obtain ⟨l, hl, -⟩ := h.linked.paths x hx
  have hpos : 0 < l.length := List.length_pos_iff.2 hl.ne_nil
  exact Machine.shaped_treeOf h.linked h.kind hx l s.cfg.depthMax hl (by omega)

mutual
/-- The tree that hangs under the root of a stored tree is that tree. -/
theorem Tree.treeAt_of_storedAt {ns : List Node} : ∀ (t : Tree) {k x : Nat} {p : Option Nat}, t.StoredAt ns x p →
    t.count ≤ k → treeAt k ns x = t
  | .prim t v, k, x, p, h, hk => by
    obtain ⟨k, rfl⟩ := Nat.exists_eq_add_of_le' (show 1 ≤ k from hk)
    simp [treeAt, h.getElem?, Tree.record]
  | .cons t kids, k, x, p, h, hk => by
    rw [Tree.count] at hk
    obtain ⟨k, rfl⟩ := Nat.exists_eq_add_of_le' (show 1 ≤ k by omega)
    simp [treeAt, h.getElem?, Tree.record, Tree.map_treeAt_of_storedListAt kids h.kids (k := k) (by omega)]
/-- The same for the roots of a list of stored trees. -/
theorem Tree.map_treeAt_of_storedListAt {ns : List Node} : ∀ (ts : List Tree) {k x : Nat} {p : Option Nat},
    Tree.StoredListAt ns ts x p → Tree.countList ts ≤ k → (Tree.rootIds ts x).map (fun c => treeAt k ns c) = ts
  | [], _, _, _, _, _ => rfl
  | t :: ts, k, x, p, h, hk => by
    obtain ⟨ht, hts⟩ := h
    rw [Tree.countList] at hk
    rw [Tree.rootIds, List.map_cons, Tree.treeAt_of_storedAt t ht (by omega),
      Tree.map_treeAt_of_storedListAt ts hts (by omega)]
end

/-- A parse that succeeds ends as the commit of its tree does (41_tlv_unit R142, R144). -/
theorem parseAtBody_of_parse {s : State} {o : Nat} {t : Tree} {rest : List Byte}
    (h : parseNode s.cfg.depthMax (s.tbFrom o) = .ok (t, rest)) :
    parseAtBody s o = (s.commit t).map fun r => { r.1 with r0 := BitVec.ofNat 32 r.2, r1 := s.tbOffset rest } := by
  rw [parseAtBody, h]
  cases hc : s.commit t <;> simp only [hc, Except.map]

/-- TLVPARSEAT where the decoder sees just the encoding of a tree that fits: ArenaFull, or the tree stored and all of
TB read. -/
theorem tlvparseat_enc {s u : State} {t : Tree} (hncnt : s.ncnt.toNat = s.nodes.length)
    (hfits : t.fits s.cfg.depthMax = true) (hsees : s.tbFrom s.a0.toNat = t.enc)
    (hu : exec .tlvparseat s = .next u) :
    (u.status = 4#32 ∧ u.err = 0x46#8) ∨
      (u.status = 2#32 ∧ u.r0 = s.ncnt ∧ u.r1 = s.tlen ∧ u.nodes = withTree s.nodes t) := by
  have hparse := parseNode_enc t [] hfits
  rw [List.append_nil, ← hsees] at hparse
  rw [exec_tlvparseat, parseAtBody_of_parse hparse] at hu
  cases hc : s.commit t with
  | error e =>
    obtain rfl := State.commit_error hc
    rw [hc] at hu
    cases hu
    exact .inl ⟨rfl, rfl⟩
  | ok r =>
    obtain ⟨s', x⟩ := r
    obtain ⟨-, -, rfl, rfl⟩ := State.commit_ok.1 hc
    rw [hc] at hu
    cases hu
    refine .inr ⟨rfl, ?_, ?_, ?_⟩
    · exact BitVec.ofNat_toNat _ _
    · exact BitVec.ofNat_toNat _ _
    · rw [withTree, ← hncnt]
      rfl

/-- Settles O52: TLVSER appended the encoding of the tree under the node, that tree fits, and the parse of its encoding
stores it. -/
theorem parseAfterSerialize : Obligations.ParseAfterSerialize := by
  unfold Obligations.ParseAfterSerialize
  intro s t u hm h hser hdone hparse
  obtain ⟨hx, happ⟩ := appended_of_tlvser hm h hser hdone
  have hsees := happ.tbFrom
  obtain ⟨-, htlen, -, hframe⟩ := happ
  have hsize : (treeOf s.nodes s.a0.toNat).size < 2 ^ 32 := by
    have hlt : t.tlen.toNat < 2 ^ 32 := t.tlen.isLt
    rw [htlen, length_encNode h.linked h.lengths hx, ← size_treeOf h.linked h.lengths hx] at hlt
    omega
  have hshaped := h.shaped_treeOf hx
  rw [← enc_treeOf h.linked h.lengths hx] at hsees
  have hcfg : t.cfg = s.cfg := by rw [hframe]
  have hnodes : t.nodes = s.nodes := by rw [hframe]
  have hncnt : t.ncnt.toNat = s.nodes.length := by rw [← h.ncnt, hframe]
  have hend := tlvparseat_enc (s := { t with a0 := s.tlen }) (hncnt.trans (congrArg _ hnodes.symm))
    (hcfg ▸ Tree.fits_of_shaped _ hshaped hsize) hsees hparse
  refine hend.imp_right ?_
  rintro ⟨hstatus, hr0, hr1, hstore⟩
  have hroot : u.r0.toNat = s.nodes.length := (congrArg _ hr0).trans hncnt
  have hunodes : u.nodes = withTree s.nodes (treeOf s.nodes s.a0.toNat) := hnodes ▸ hstore
  have hstored := (hangs_withTree (ns := s.nodes) hshaped).1
  rw [hunodes, hroot]
  refine ⟨hstatus, hr1, hstored.parentOf_root, le_rfl, Tree.treeAt_of_storedAt _ hstored ?_⟩
  rw [length_withTree]
  exact Nat.le_add_left _ _

end Sys2Proof.Machine
end

section
/-! SUPPORT. The LRC: T1EDC computes it (42_t1_block_unit R176), and `t1_parse` detects one inverted bit by it but not
the same bit inverted in two octets (R177). -/

namespace Sys2Proof.Machine

theorem exec_t1edc (s : State) : exec .t1edc s = .next (s.complete (t1edcBody s)) := rfl

/-! ### T1EDC -/

theorem foldl_xor_eq_lrc (acc : Byte) (bs : List Byte) : bs.foldl (fun acc b => acc ^^^ b) acc = acc ^^^ lrc bs := by
  induction bs generalizing acc with
  | nil => simp
  | cons b bs ih => rw [List.foldl_cons, ih, lrc_cons, BitVec.xor_assoc]

/-- The two ways to write the exclusive or of all octets, from the left and from the right, agree (30_encoding R94). -/
theorem xorAll_eq_lrc (bs : List Byte) : xorAll bs = lrc bs :=
  (foldl_xor_eq_lrc 0#8 bs).trans BitVec.zero_xor

theorem octetsAt_read (m : Memory) (o n : Nat) : octetsAt m.read o n = m.readRange o n := rfl

theorem t1edcBody_of_gt {s : State} (h : fbCap < s.a0.toNat) : t1edcBody s = .error .badOperand := if_pos h

theorem t1edcBody_of_le {s : State} (h : s.a0.toNat ≤ fbCap) :
    t1edcBody s = .ok { s with r0 := (lrc (s.fb.readRange 0 s.a0.toNat)).setWidth 32 } := if_neg (Nat.not_lt.2 h)

/-- Settles O33: the size test, then the exclusive or, which does not depend on the order of its terms. -/
theorem t1edcComputesLrc : Obligations.T1edcComputesLrc := by
  unfold Obligations.T1edcComputesLrc
  refine ⟨rfl, fun s => ?_⟩
  rw [exec_t1edc, xorAll_eq_lrc, octetsAt_read]
  split
  · next hlarge =>
    rw [t1edcBody_of_gt hlarge]
    rfl
  · next hfits =>
    rw [t1edcBody_of_le (Nat.le_of_not_lt hfits)]
    rfl

/-! ### What `t1_parse` tests -/

/-- A frame whose length is the one that its LEN octet, not the reserved 0xFF, asks for (30_encoding R103). -/
def LenMatches (raw : List Byte) : Prop :=
  raw.getD 2 0#8 ≠ 0xFF#8 ∧ raw.length = (raw.getD 2 0#8).toNat + 4

/-- The last octet is the LRC of those before it exactly when the LRC of all octets is 0. -/
theorem lrc_take_eq_getD_iff {raw : List Byte} {n : Nat} (h : raw.length = n + 1) :
    lrc (raw.take n) = raw.getD n 0#8 ↔ lrc raw = 0#8 := by
  have hn : n < raw.length := by omega
  have hsplit : raw.take n ++ [raw.getD n 0#8] = raw := by
    rw [List.getD_eq_getElem _ _ hn, List.take_append_getElem, ← h, List.take_length]
  have hlrc : lrc raw = lrc (raw.take n) ^^^ raw.getD n 0#8 := by
    conv_lhs => rw [← hsplit, lrc_append, lrc_cons, lrc_nil, BitVec.xor_zero]
  rw [hlrc, BitVec.xor_eq_zero_iff]

/-- Every test of the size, in LRC mode, ends in LengthMismatch (30_encoding R103). -/
theorem t1Parse_of_not_lenMatches {raw : List Byte} (h : ¬ LenMatches raw) :
    t1Parse 0#1 raw = .error .lengthMismatch := by
  rw [t1Parse, if_neg (by decide)]
  split
  · rfl
  · simp only
    split
    · rfl
    · next hff => exact if_pos fun hlen => h ⟨hff, hlen⟩

/-- Past the tests of the size the LRC of all octets decides (30_encoding R94, R103). -/
theorem t1Parse_of_lenMatches {raw : List Byte} (h : LenMatches raw) :
    ∃ b, t1Parse 0#1 raw = if lrc raw = 0#8 then .ok b else .error .edcError := by
  obtain ⟨hff, hlen⟩ := h
  have hshort : ¬ raw.length < 4 := by omega
  apply Exists.intro
  rw [t1Parse, if_neg (by decide), if_neg hshort]
  simp only
  rw [if_neg hff, if_neg (not_not.2 hlen), ite_not]
  simp only [lrc_take_eq_getD_iff (n := (raw.getD 2 0#8).toNat + 3) hlen]
  rfl

/-- The good frames are those of matching length whose LRC is 0. -/
theorem goodFrame_iff {raw : List Byte} : GoodFrame raw ↔ LenMatches raw ∧ lrc raw = 0#8 := by
  by_cases hlen : LenMatches raw
  · obtain ⟨b, hparse⟩ := t1Parse_of_lenMatches hlen
    rw [GoodFrame, hparse]
    split
    · next hzero => exact iff_of_true rfl ⟨hlen, hzero⟩
    · next hne => exact iff_of_false Bool.false_ne_true fun h => hne h.2
  · rw [GoodFrame, t1Parse_of_not_lenMatches hlen]
    exact iff_of_false Bool.false_ne_true fun h => hlen h.1

/-! ### One inverted bit -/

/-- The octet that inverts a bit is not 0. -/
theorem bitMask_ne_zero : ∀ k < 8, BitVec.ofNat 8 (2 ^ k) ≠ 0#8 := by decide

@[simp] theorem flipBit_cons_zero (b : Byte) (bs : List Byte) (k : Nat) :
    flipBit (b :: bs) 0 k = (b ^^^ BitVec.ofNat 8 (2 ^ k)) :: bs := rfl

@[simp] theorem flipBit_cons_succ (b : Byte) (bs : List Byte) (j k : Nat) :
    flipBit (b :: bs) (j + 1) k = b :: flipBit bs j k := rfl

@[simp] theorem length_flipBit (raw : List Byte) (j k : Nat) : (flipBit raw j k).length = raw.length :=
  List.length_set

theorem getD_flipBit_of_ne {raw : List Byte} {i j : Nat} (h : j ≠ i) (k : Nat) :
    (flipBit raw j k).getD i 0#8 = raw.getD i 0#8 := by
  simp only [flipBit, List.getD_eq_getElem?_getD, List.getElem?_set_ne h]

theorem getD_flipBit_same {raw : List Byte} {j : Nat} (h : j < raw.length) (k : Nat) :
    (flipBit raw j k).getD j 0#8 = raw.getD j 0#8 ^^^ BitVec.ofNat 8 (2 ^ k) := by
  rw [flipBit, List.getD_eq_getElem _ _ (by simpa using h), List.getElem_set_self]

/-- An inverted bit is inverted in the LRC, whichever octet it stands in (42_t1_block_unit R177). -/
theorem lrc_flipBit {raw : List Byte} {j : Nat} (h : j < raw.length) (k : Nat) :
    lrc (flipBit raw j k) = lrc raw ^^^ BitVec.ofNat 8 (2 ^ k) := by
  induction raw generalizing j with
  | nil => exact absurd h (Nat.not_lt_zero j)
  | cons b bs ih =>
    cases j with
    | zero =>
      rw [flipBit_cons_zero, lrc_cons, lrc_cons, BitVec.xor_assoc, BitVec.xor_comm _ (lrc bs), BitVec.xor_assoc]
    | succ j => rw [flipBit_cons_succ, lrc_cons, lrc_cons, ih (Nat.lt_of_succ_lt_succ h), BitVec.xor_assoc]

/-- A bit inverted outside LEN leaves the tests of the size as they were. -/
theorem lenMatches_flipBit {raw : List Byte} {j : Nat} (h : j ≠ 2) (k : Nat) :
    LenMatches (flipBit raw j k) ↔ LenMatches raw := by
  simp only [LenMatches, length_flipBit, getD_flipBit_of_ne h]

/-- A bit inverted in LEN asks for another length (42_t1_block_unit R177). -/
theorem not_lenMatches_flipBit_len {raw : List Byte} (h : LenMatches raw) {k : Nat} (hk : k < 8) :
    ¬ LenMatches (flipBit raw 2 k) := by
  rintro ⟨-, hflipped⟩
  obtain ⟨-, hlen⟩ := h
  rw [length_flipBit, getD_flipBit_same (by omega)] at hflipped
  have hsame : raw.getD 2 0#8 ^^^ BitVec.ofNat 8 (2 ^ k) = raw.getD 2 0#8 :=
    BitVec.eq_of_toNat_eq (by omega)
  exact bitMask_ne_zero k hk ((BitVec.xor_right_inj _).1 (hsame.trans BitVec.xor_zero.symm))

/-- Settles O53: one inverted bit makes the LRC of a good frame nonzero, a second one in the same position makes it 0
again; in LEN the test of the size comes first. -/
theorem lrcDetectsSingleBit : Obligations.LrcDetectsSingleBit := by
  unfold Obligations.LrcDetectsSingleBit
  intro raw k hgood hk
  obtain ⟨hlen, hzero⟩ := goodFrame_iff.1 hgood
  refine ⟨fun j hj => ?_, fun i hi j hj _ hi2 hj2 => ?_⟩
  · split
    · next hj2 =>
      subst hj2
      exact t1Parse_of_not_lenMatches (not_lenMatches_flipBit_len hlen hk)
    · next hj2 =>
      have hlrc : lrc (flipBit raw j k) ≠ 0#8 := by
        rw [lrc_flipBit hj, hzero, BitVec.zero_xor]
        exact bitMask_ne_zero k hk
      obtain ⟨b, hparse⟩ := t1Parse_of_lenMatches ((lenMatches_flipBit hj2 k).2 hlen)
      rw [hparse, if_neg hlrc]
  · refine goodFrame_iff.2 ⟨(lenMatches_flipBit hj2 k).2 ((lenMatches_flipBit hi2 k).2 hlen), ?_⟩
    rw [lrc_flipBit (by simpa using hj), lrc_flipBit hi, hzero, BitVec.zero_xor, BitVec.xor_self]

end Sys2Proof.Machine
end

section
/-! SUPPORT. HOST accesses to an idle engine: CMD (44_system R221, R224), registers (R223), octets (R225). -/

namespace Sys2Proof.Machine

/-! ### Events, and the writes of CMD -/

theorem step_of_settled {s t : State} {e : Input} {rest : List Input} (hin : s.inputs = e :: rest)
    (h : ({ s with inputs := rest }).arrive e = .settled t) : step s = .next t := by
  rw [step_cons hin, h]
  rfl

theorem step_of_run {s t : State} {e : Input} {rest : List Input} {i : Instr} (hin : s.inputs = e :: rest)
    (h : ({ s with inputs := rest }).arrive e = .run i t) : step s = exec i t := by
  rw [step_cons hin, h]
  rfl

/-- A code of no row of the command table is IllegalCommand (30_encoding R105). -/
theorem decodeCommand_of_notMem {c : Byte} (h : c ∉ commandTable.map Prod.fst) :
    decodeCommand c = .error (.illegalCommand c) := by
  have hnone : commandTable.lookup c = none := by
    rw [List.lookup_eq_none_iff]
    exact fun p hp => bne_iff_ne.2 fun heq => h (heq ▸ List.mem_map_of_mem hp)
  simp only [decodeCommand, hnone]

/-- The command that a write of CMD names runs on the state its start leaves (44_system R220). -/
theorem State.arrive_command {s : State} {v : Word} {i : Instr} (hidle : s.busy = false)
    (hdec : decodeCommand (v.setWidth 8) = .ok i) :
    s.arrive (.host (.writeReg 0 v)) = .run i (s.start (v.setWidth 8)) := by
  simp [State.arrive, State.hostAccess, State.writeCmd, hidle, hdec]

/-- A code that names no command starts and at once ends with IllegalCommand (44_system R224). -/
theorem State.arrive_illegalCommand {s : State} {v : Word} {e : DecodeError} (hidle : s.busy = false)
    (hdec : decodeCommand (v.setWidth 8) = .error e) :
    s.arrive (.host (.writeReg 0 v)) = .settled ((s.start (v.setWidth 8)).raise .illegalCommand) := by
  simp [State.arrive, State.hostAccess, State.writeCmd, hidle, hdec]

theorem exec_nop (s : State) : exec .nop s = .next s.finish := rfl

/-- Settles O7: the listed codes are the first column of the command table, so any other is an illegal command. -/
theorem stepEndsIllegalCommand : Obligations.StepEndsIllegalCommand := by
  unfold Obligations.StepEndsIllegalCommand
  intro s v rest hidle hin hcode
  exact step_of_settled hin (State.arrive_illegalCommand hidle (decodeCommand_of_notMem hcode))

/-- Settles O13: NOP is the end of a command, right after its start. -/
theorem nopOnlyClears : Obligations.NopOnlyClears := by
  unfold Obligations.NopOnlyClears
  refine ⟨rfl, exec_nop, fun s v rest hidle hin hcode => ?_⟩
  have hdec : decodeCommand (v.setWidth 8) = .ok .nop := by rw [hcode]; rfl
  rw [step_of_run hin (State.arrive_command hidle hdec), exec_nop, hcode]
  rfl

/-! ### Registers -/

/-- The register read is the list of 10_state R21, continued by 0 at the reserved numbers. -/
theorem State.readReg_eq (s : State) (n : Nat) : s.readReg n = (registerValues s).getD n 0#32 := by
  rcases Nat.lt_or_ge n 27 with hlt | hge
  · interval_cases n <;> rfl
  · obtain ⟨k, rfl⟩ := Nat.exists_eq_add_of_le' hge
    rfl

theorem setWidth_eq_ofNat_mod (v : Word) (w : Nat) : v.setWidth w = BitVec.ofNat w (v.toNat % 2 ^ w) := by
  apply BitVec.eq_of_toNat_eq
  simp

/-- The register write as a chain of tests, with the capacities of 00_scope R4 as numbers and the low bits by
arithmetic (44_system R223). -/
theorem State.writeReg_eq (s : State) (n : Nat) (v : Word) : s.writeReg n v =
    if n = 4 then { s with a0 := v }
    else if n = 5 then { s with a1 := v }
    else if n = 6 then { s with a2 := v }
    else if n = 7 then { s with a3 := v }
    else if n = 12 ∧ v.toNat ≤ s.cfg.tbCap then { s with tlen := v }
    else if n = 15 then { s with dlen := BitVec.ofNat 16 (v.toNat % 2 ^ 16) }
    else if n = 16 ∧ v.toNat ≤ 259 then { s with flen := BitVec.ofNat 16 v.toNat }
    else if n = 17 then { s with edcMode := BitVec.ofNat 1 (v.toNat % 2) }
    else if n = 18 then { s with haddr := BitVec.ofNat 3 (v.toNat % 8) }
    else if n = 19 then { s with daddr := BitVec.ofNat 3 (v.toNat % 8) }
    else if n = 20 then { s with bwt := v }
    else s := by
  unfold State.writeReg
  split
  case h_5 => -- TLEN
    by_cases hfits : v.toNat ≤ s.cfg.tbCap
    · simp [hfits, Nat.not_lt.2 hfits]
    · simp [hfits, Nat.not_le.1 hfits]
  case h_6 => simp [setWidth_eq_ofNat_mod v 16]
  case h_7 => -- FLEN
    by_cases hfits : v.toNat ≤ 259
    · simp [fbCap, hfits, Nat.not_lt.2 hfits]
    · simp [fbCap, hfits, Nat.not_le.1 hfits]
  case h_8 => simp [setWidth_eq_ofNat_mod v 1]
  case h_9 | h_10 => simp [setWidth_eq_ofNat_mod v 3]
  case h_12 => -- read-only and reserved numbers
    simp_all only [imp_false, false_and, if_false]
  all_goals rfl

/-- What a HOST read returns while BUSY is 0 (44_system R223). -/
theorem State.arrive_readReg {s : State} (hidle : s.busy = false) (n : Nat) :
    s.arrive (.host (.readReg n)) = .settled { s with hostData := s.readReg n } := by
  simp [State.arrive, State.hostAccess, State.hostReads, hidle]

theorem State.arrive_writeReg {s : State} (hidle : s.busy = false) {n : Nat} (hn : n ≠ 0) (v : Word) :
    s.arrive (.host (.writeReg n v)) = .settled (s.writeReg n v) := by
  simp [State.arrive, State.hostAccess, hidle, hn]

/-- Settles O8: the two halves of the register port, each in the form of the statement. -/
theorem hostRegisterAccess : Obligations.HostRegisterAccess := by
  unfold Obligations.HostRegisterAccess
  intro s n v rest hs
  have hidle : ({ s with inputs := rest } : State).busy = false := hs
  refine ⟨fun hin => ?_, fun hin hn => ?_⟩
  · rw [step_of_settled hin (State.arrive_readReg hidle n), State.readReg_eq]
    rfl
  · rw [step_of_settled hin (State.arrive_writeReg hidle hn v), State.writeReg_eq]

/-! ### Octets -/

theorem State.spaceSize_eq (s : State) (sp : Space) : s.spaceSize sp = sizeOfSpace s sp := by
  cases sp <;> rfl

theorem State.space_inputs (s : State) (rest : List Input) (sp : Space) :
    ({ s with inputs := rest } : State).space sp = s.space sp := by
  cases sp <;> rfl

theorem sizeOfSpace_inputs (s : State) (rest : List Input) (sp : Space) :
    sizeOfSpace { s with inputs := rest } sp = sizeOfSpace s sp := by
  cases sp <;> rfl

theorem State.MemoryInv.space_wf {s : State} (h : s.MemoryInv) (sp : Space) : (s.space sp).wf := by
  cases sp with
  | tb => exact h.tb_wf
  | db => exact h.db_wf
  | fb => exact h.fb_wf
  | ls0 => exact h.ls0_wf
  | ls1 => exact h.ls1_wf

theorem stored_write {m : Memory} (hm : m.wf) (off : Nat) (b : Byte) : Stored m (m.write off b) off [b] :=
  fun a => Memory.read_writeRange hm off a [b]

theorem State.space_writeByte_same {s : State} {sp : Space} {off : Nat} (b : Byte) (hoff : off < s.spaceSize sp)
    (h0 : sp ≠ .ls0) (h1 : sp ≠ .ls1) : (s.writeByte sp off b).space sp = (s.space sp).write off b := by
  simp only [State.writeByte, if_pos hoff]
  cases sp with
  | tb | db | fb => rfl
  | ls0 => exact absurd rfl h0
  | ls1 => exact absurd rfl h1

theorem State.space_writeByte_other (s : State) {sp other : Space} (off : Nat) (b : Byte) (h : other ≠ sp) :
    (s.writeByte sp off b).space other = s.space other := by
  unfold State.writeByte
  split
  · cases sp with
    | tb => cases other with
      | tb => exact absurd rfl h
      | db | fb | ls0 | ls1 => rfl
    | db => cases other with
      | db => exact absurd rfl h
      | tb | fb | ls0 | ls1 => rfl
    | fb => cases other with
      | fb => exact absurd rfl h
      | tb | db | ls0 | ls1 => rfl
    | ls0 | ls1 => rfl
  · rfl

/-- A HOST write of an octet reaches the three writable spaces alone: no length, no register. -/
theorem State.writeByte_frame (s : State) (sp : Space) (off : Nat) (b : Byte) :
    s.writeByte sp off b = { s with
      tb := (s.writeByte sp off b).tb, db := (s.writeByte sp off b).db, fb := (s.writeByte sp off b).fb } := by
  unfold State.writeByte
  split
  · cases sp <;> rfl
  · rfl

/-- The writes that 44_system R225 ignores: to a last-sent store, and at or beyond the size. -/
theorem State.writeByte_ignored {s : State} {sp : Space} {off : Nat} (b : Byte)
    (h : s.spaceSize sp ≤ off ∨ sp = .ls0 ∨ sp = .ls1) : s.writeByte sp off b = s := by
  rcases h with hout | rfl | rfl
  · exact if_neg (Nat.not_lt.2 hout)
  · exact ite_self s
  · exact ite_self s

/-- What a HOST read of an octet returns while BUSY is 0 (44_system R225). -/
theorem State.arrive_readByte {s : State} (hidle : s.busy = false) (sp : Space) (off : Nat) :
    s.arrive (.host (.readByte sp off)) = .settled { s with hostData := (s.readByte sp off).setWidth 32 } := by
  simp [State.arrive, State.hostAccess, State.hostReads, hidle]

theorem State.arrive_writeByte {s : State} (hidle : s.busy = false) (sp : Space) (off : Nat) (b : Byte) :
    s.arrive (.host (.writeByte sp off b)) = .settled (s.writeByte sp off b) := by
  simp [State.arrive, State.hostAccess, hidle]

theorem State.setWidth_readByte (s : State) (sp : Space) (off : Nat) : (s.readByte sp off).setWidth 32 =
    if off < sizeOfSpace s sp then ((s.space sp).read off).setWidth 32 else 0#32 := by
  rw [State.readByte, State.spaceSize_eq, apply_ite (BitVec.setWidth 32)]
  rfl

/-- Settles O9: a read by cases of the size; a write by the rule of byte spaces for read after write, or ignored. -/
theorem hostBufferAccess : Obligations.HostBufferAccess := by
  unfold Obligations.HostBufferAccess
  intro s sp off b rest hmem hs
  have hidle : ({ s with inputs := rest } : State).busy = false := hs
  refine ⟨fun hin => ?_, fun hin hoff h0 h1 => ?_, fun hin hout => ?_⟩
  · rw [step_of_settled hin (State.arrive_readByte hidle sp off), State.setWidth_readByte, State.space_inputs,
      sizeOfSpace_inputs]
  · have hsize : off < ({ s with inputs := rest } : State).spaceSize sp := by
      rwa [State.spaceSize_eq, sizeOfSpace_inputs]
    refine ⟨_, step_of_settled hin (State.arrive_writeByte hidle sp off b), ?_, fun other hne => ?_,
      State.writeByte_frame _ sp off b⟩
    · rw [State.space_writeByte_same b hsize h0 h1, State.space_inputs]
      exact stored_write (hmem.space_wf sp) off b
    · rw [State.space_writeByte_other _ off b hne, State.space_inputs]
  · rw [← sizeOfSpace_inputs s rest, ← State.spaceSize_eq] at hout
    rw [step_of_settled hin (State.arrive_writeByte hidle sp off b), State.writeByte_ignored b hout]

end Sys2Proof.Machine
end

section
/-! SUPPORT. HOST accesses while a command waits, BUSY = 1 (70_reset_and_hazards R266). -/

namespace Sys2Proof.Machine

theorem State.arrive_writeReg_of_busy {s : State} (hbusy : s.busy = true) (n : Nat) (v : Word) :
    s.arrive (.host (.writeReg n v)) = .settled s :=
  if_pos hbusy

theorem State.arrive_writeByte_of_busy {s : State} (hbusy : s.busy = true) (sp : Space) (off : Nat) (b : Byte) :
    s.arrive (.host (.writeByte sp off b)) = .settled s :=
  if_pos hbusy

/-- STATUS is the one register that reads true, busy or idle. -/
theorem State.arrive_readReg_status (s : State) :
    s.arrive (.host (.readReg 1)) = .settled { s with hostData := s.status } := by
  simp [State.arrive, State.hostAccess, State.hostReads, State.readReg]

theorem State.arrive_readReg_of_busy {s : State} (hbusy : s.busy = true) {n : Nat} (hn : n ≠ 1) :
    s.arrive (.host (.readReg n)) = .settled { s with hostData := 0#32 } := by
  simp [State.arrive, State.hostAccess, State.hostReads, hbusy, hn]

theorem State.arrive_readByte_of_busy {s : State} (hbusy : s.busy = true) (sp : Space) (off : Nat) :
    s.arrive (.host (.readByte sp off)) = .settled { s with hostData := 0#32 } := by
  simp [State.arrive, State.hostAccess, State.hostReads, hbusy]

/-- Of the four values STATUS may hold, BUSY is set in one alone: the others are 0, DONE and ERRF. -/
theorem State.StatusInv.status_of_busy {s : State} (h : s.StatusInv) (hbusy : s.busy = true) :
    s.status = statusBusy := by
  rw [State.busy] at hbusy
  rcases h.status with hreset | hwaits | hdone | herrf
  · exact absurd (hreset ▸ hbusy) (by decide)
  · exact hwaits
  · exact absurd (hdone ▸ hbusy) (by decide)
  · exact absurd (herrf ▸ hbusy) (by decide)

/-- Settles O10: each access settles by its rule, and BUSY leaves STATUS one value. -/
theorem hostAccessWhileBusy : Obligations.HostAccessWhileBusy := by
  unfold Obligations.HostAccessWhileBusy
  intro s rest hs
  have hbusy : ({ s with inputs := rest } : State).busy = true := hs
  refine ⟨fun n v hin => ?_, fun sp off b hin => ?_, fun hin => ?_, fun n hn hin => ?_, fun sp off hin => ?_,
    fun hinv => hinv.status_of_busy hs⟩
  · exact step_of_settled hin (State.arrive_writeReg_of_busy hbusy n v)
  · exact step_of_settled hin (State.arrive_writeByte_of_busy hbusy sp off b)
  · exact step_of_settled hin (State.arrive_readReg_status _)
  · exact step_of_settled hin (State.arrive_readReg_of_busy hbusy hn)
  · exact step_of_settled hin (State.arrive_readByte_of_busy hbusy sp off)

end Sys2Proof.Machine
end

section
/-! SUPPORT. Instructions and their octets: the two tables of codes are looked up by key, and the fields of a PCB stand
in places of their own (30_encoding R81, R95 to R100). -/

namespace Sys2Proof

/-! ### Tables -/

theorem lookup_cons_eq_ite {α β : Type} [BEq α] [LawfulBEq α] [DecidableEq α] (l : List (α × β)) (a k : α) (v : β) :
    ((k, v) :: l).lookup a = if a = k then some v else l.lookup a := by
  rw [List.lookup_cons]
  split <;> simp_all

/-- In a table without a repeated key, a lookup finds exactly the rows. -/
theorem lookup_eq_some_iff_mem {α β : Type} [BEq α] [LawfulBEq α] [DecidableEq α] {l : List (α × β)}
    (h : (l.map Prod.fst).Nodup) {a : α} {b : β} : l.lookup a = some b ↔ (a, b) ∈ l := by
  induction l with
  | nil => simp
  | cons p l ih =>
    obtain ⟨k, v⟩ := p
    rw [List.map_cons, List.nodup_cons] at h
    obtain ⟨hk, hl⟩ := h
    rw [lookup_cons_eq_ite, List.mem_cons, ← ih hl, Prod.mk.injEq]
    by_cases hak : a = k
    · subst hak
      have hnone : l.lookup a ≠ some b := fun hsome => hk (List.mem_map_of_mem (f := Prod.fst) ((ih hl).1 hsome) :)
      simp [hnone, eq_comm]
    · simp [hak]

/-! ### Commands -/

theorem commandTable_nodup : (commandTable.map Prod.fst).Nodup := by decide

/-- The rows of the command table are what decodes (30_encoding R81, R105). -/
theorem decodeCommand_ok_iff {c : Byte} {i : Instr} : decodeCommand c = .ok i ↔ (c, i) ∈ commandTable := by
  rw [← lookup_eq_some_iff_mem commandTable_nodup, decodeCommand]
  cases commandTable.lookup c <;> simp

/-- Each row of the command table holds a command beside its octet. -/
theorem encodeOctet_of_mem_commandTable (sc : SCode) :
    ∀ p ∈ commandTable, p.2.format = .cmd ∧ encodeOctet sc p.2 = p.1 := by
  simp [commandTable, Instr.format, encodeOctet]

/-- Every command has its row. -/
theorem mem_commandTable_of_format {i : Instr} (sc : SCode) (h : i.format = .cmd) :
    (encodeOctet sc i, i) ∈ commandTable := by
  cases i
  case pcbI | pcbR | pcbResynchRequest | pcbResynchResponse | pcbIfsRequest | pcbIfsResponse | pcbAbortRequest
    | pcbAbortResponse | pcbWtxRequest | pcbWtxResponse | pcbVppStateErrorResponse => cases h
  all_goals simp [commandTable, encodeOctet]

/-! ### S-block codes -/

/-- The table of 30_encoding R100: each code beside the instruction of its PCB. -/
def scodeTable (sc : SCode) : List (BitVec 6 × Instr) :=
  [(sc.resynchRequest, .pcbResynchRequest), (sc.resynchResponse, .pcbResynchResponse),
    (sc.ifsRequest, .pcbIfsRequest), (sc.ifsResponse, .pcbIfsResponse), (sc.abortRequest, .pcbAbortRequest),
    (sc.abortResponse, .pcbAbortResponse), (sc.wtxRequest, .pcbWtxRequest), (sc.wtxResponse, .pcbWtxResponse),
    (sc.vppStateErrorResponse, .pcbVppStateErrorResponse)]

theorem scodeTable_codes (sc : SCode) : (scodeTable sc).map Prod.fst = sc.codes := rfl

/-- The chain of tests of `decodeSCode` is a lookup in that table. -/
theorem decodeSCode_eq_lookup (sc : SCode) (code : BitVec 6) : decodeSCode sc code =
    match (scodeTable sc).lookup code with
    | some i => .ok i
    | none => .error (.unknownSCode code) := by
  unfold decodeSCode
  simp only [scodeTable, lookup_cons_eq_ite, List.lookup_nil]
  split_ifs <;> rfl

/-- With nine distinct codes, the rows of that table are what decodes (30_encoding R100). -/
theorem decodeSCode_ok_iff {sc : SCode} (h : sc.WellFormed) {code : BitVec 6} {i : Instr} :
    decodeSCode sc code = .ok i ↔ (code, i) ∈ scodeTable sc := by
  rw [← lookup_eq_some_iff_mem (scodeTable_codes sc ▸ h), decodeSCode_eq_lookup]
  cases (scodeTable sc).lookup code <;> simp

/-- Each row of the S-code table holds a PCB instruction beside the code of its octet. -/
theorem encodeOctet_of_mem_scodeTable (sc : SCode) :
    ∀ p ∈ scodeTable sc, p.2.format = .pcb ∧ encodeOctet sc p.2 = pcbOctetS p.1 := by
  simp [scodeTable, Instr.format, encodeOctet]

/-- A code that decodes, whatever the table, decodes by one of its rows. -/
theorem mem_scodeTable_of_decodeSCode {sc : SCode} {code : BitVec 6} {i : Instr} (h : decodeSCode sc code = .ok i) :
    (code, i) ∈ scodeTable sc := by
  rw [decodeSCode_eq_lookup] at h
  cases hl : (scodeTable sc).lookup code with
  | none => rw [hl] at h; cases h
  | some j =>
    rw [hl] at h
    cases h
    obtain ⟨l₁, l₂, heq, -⟩ := List.lookup_eq_some_iff.1 hl
    rw [heq]
    simp

/-! ### PCB octets -/

/-- The fields of an I-block PCB read back (30_encoding R96). -/
theorem pcbOctetI_fields : ∀ (ns more : BitVec 1) (ignored : BitVec 5),
    (pcbOctetI ns more ignored).extractLsb' 7 1 = 0#1 ∧ (pcbOctetI ns more ignored).extractLsb' 6 1 = ns ∧
      (pcbOctetI ns more ignored).extractLsb' 5 1 = more ∧ (pcbOctetI ns more ignored).extractLsb' 0 5 = ignored := by
  decide

/-- The fields of an R-block PCB read back (30_encoding R97). -/
theorem pcbOctetR_fields : ∀ (ignored nr : BitVec 1) (err : BitVec 4),
    (pcbOctetR ignored nr err).extractLsb' 7 1 = 1#1 ∧ (pcbOctetR ignored nr err).extractLsb' 6 1 = 0#1 ∧
      (pcbOctetR ignored nr err).extractLsb' 5 1 = ignored ∧ (pcbOctetR ignored nr err).extractLsb' 4 1 = nr ∧
      (pcbOctetR ignored nr err).extractLsb' 0 4 = err := by
  decide

/-- The fields of an S-block PCB read back (30_encoding R98). -/
theorem pcbOctetS_fields : ∀ code : BitVec 6, (pcbOctetS code).extractLsb' 7 1 = 1#1 ∧
    (pcbOctetS code).extractLsb' 6 1 = 1#1 ∧ (pcbOctetS code).extractLsb' 0 6 = code := by
  decide

/-- Every octet is put together again from the fields of its block type (30_encoding R95 to R98). -/
theorem pcbOctet_of_fields : ∀ p : Byte,
    (p.extractLsb' 7 1 = 0#1 → pcbOctetI (p.extractLsb' 6 1) (p.extractLsb' 5 1) (p.extractLsb' 0 5) = p) ∧
    (p.extractLsb' 7 1 ≠ 0#1 → p.extractLsb' 6 1 = 0#1 →
      pcbOctetR (p.extractLsb' 5 1) (p.extractLsb' 4 1) (p.extractLsb' 0 4) = p) ∧
    (p.extractLsb' 7 1 ≠ 0#1 → p.extractLsb' 6 1 ≠ 0#1 → pcbOctetS (p.extractLsb' 0 6) = p) := by
  decide

theorem decodePcb_pcbOctetI (sc : SCode) (ns more : BitVec 1) (ignored : BitVec 5) :
    decodePcb sc (pcbOctetI ns more ignored) = .ok (.pcbI ns more ignored) := by
  obtain ⟨htype, hns, hmore, hlow⟩ := pcbOctetI_fields ns more ignored
  rw [decodePcb, if_pos htype, hns, hmore, hlow]

theorem decodePcb_pcbOctetR (sc : SCode) (ignored nr : BitVec 1) (err : BitVec 4) :
    decodePcb sc (pcbOctetR ignored nr err) = .ok (.pcbR ignored nr err) := by
  obtain ⟨htype, htype', hbit, hnr, hlow⟩ := pcbOctetR_fields ignored nr err
  rw [decodePcb, htype, if_neg (by decide), if_pos htype', hbit, hnr, hlow]

theorem decodePcb_pcbOctetS (sc : SCode) (code : BitVec 6) :
    decodePcb sc (pcbOctetS code) = decodeSCode sc code := by
  obtain ⟨htype, htype', hlow⟩ := pcbOctetS_fields code
  rw [decodePcb, htype, if_neg (by decide), htype', if_neg (by decide), hlow]

/-- What a PCB octet that decodes is (30_encoding R95 to R98). -/
theorem decodePcb_cases {sc : SCode} {p : Byte} {i : Instr} (h : decodePcb sc p = .ok i) :
    (∃ ns more ignored, i = .pcbI ns more ignored ∧ p = pcbOctetI ns more ignored) ∨
      (∃ ignored nr err, i = .pcbR ignored nr err ∧ p = pcbOctetR ignored nr err) ∨
      ∃ code, (code, i) ∈ scodeTable sc ∧ p = pcbOctetS code := by
  obtain ⟨hI, hR, hS⟩ := pcbOctet_of_fields p
  unfold decodePcb at h
  split_ifs at h with h7 h6
  · cases h
    exact .inl ⟨_, _, _, rfl, (hI h7).symm⟩
  · cases h
    exact .inr (.inl ⟨_, _, _, rfl, (hR h7 h6).symm⟩)
  · exact .inr (.inr ⟨_, mem_scodeTable_of_decodeSCode h, (hS h7 h6).symm⟩)

/-- Every PCB instruction is an I-block, an R-block or a row of the S-code table. -/
theorem pcb_cases {i : Instr} (sc : SCode) (h : i.format = .pcb) : (∃ ns more ignored, i = .pcbI ns more ignored) ∨
    (∃ ignored nr err, i = .pcbR ignored nr err) ∨ ∃ code, (code, i) ∈ scodeTable sc := by
  cases i
  case pcbI => exact .inl ⟨_, _, _, rfl⟩
  case pcbR => exact .inr (.inl ⟨_, _, _, rfl⟩)
  case pcbResynchRequest | pcbResynchResponse | pcbIfsRequest | pcbIfsResponse | pcbAbortRequest | pcbAbortResponse
    | pcbWtxRequest | pcbWtxResponse | pcbVppStateErrorResponse => simp [scodeTable]
  all_goals cases h

/-! ### The statements -/

/-- The octet of an instruction decodes to it. -/
theorem decodeOctet_encodeOctet {sc : SCode} (h : sc.WellFormed) (i : Instr) :
    decodeOctet sc i.format (encodeOctet sc i) = .ok i := by
  cases hf : i.format with
  | cmd => exact decodeCommand_ok_iff.2 (mem_commandTable_of_format sc hf)
  | pcb =>
    rcases pcb_cases sc hf with ⟨ns, more, ignored, rfl⟩ | ⟨ignored, nr, err, rfl⟩ | ⟨code, hmem⟩
    · exact decodePcb_pcbOctetI sc ns more ignored
    · exact decodePcb_pcbOctetR sc ignored nr err
    · obtain ⟨-, hoctet⟩ := encodeOctet_of_mem_scodeTable sc _ hmem
      rw [hoctet]
      exact (decodePcb_pcbOctetS sc code).trans ((decodeSCode_ok_iff h).2 hmem)

/-- Settles O3: an instruction is one octet, and that octet decodes to it. -/
theorem decodeEncodeAgree : Obligations.DecodeEncodeAgree := by
  unfold Obligations.DecodeEncodeAgree
  intro sc h i rest
  simp only [encode, List.singleton_append, decode, decodeOctet_encodeOctet h]

/-- Settles O4: commands by the rows of their table, PCB octets by their fields. -/
theorem encodeDecodeAgree : Obligations.EncodeDecodeAgree := by
  unfold Obligations.EncodeDecodeAgree
  intro sc f b i h
  cases f with
  | cmd => exact encodeOctet_of_mem_commandTable sc _ (decodeCommand_ok_iff.1 h)
  | pcb =>
    rcases decodePcb_cases h with ⟨ns, more, ignored, rfl, rfl⟩ | ⟨ignored, nr, err, rfl, rfl⟩ | ⟨code, hmem, rfl⟩
    · exact ⟨rfl, rfl⟩
    · exact ⟨rfl, rfl⟩
    · exact encodeOctet_of_mem_scodeTable sc _ hmem

/-- Settles O1: the list of the statement is the command table. -/
theorem commandWordsDecode : Obligations.CommandWordsDecode := by
  unfold Obligations.CommandWordsDecode
  exact fun c i => decodeCommand_ok_iff

/-- Settles O2: ten octets, each decoded by evaluation. -/
theorem octetsDecodeAsWritten : Obligations.OctetsDecodeAsWritten := by
  unfold Obligations.OctetsDecodeAsWritten
  refine ⟨?_, ?_, ?_, ?_, ?_, ?_, ?_, ?_, ?_, ?_⟩ <;> rfl

end Sys2Proof
end

section
/-! SUPPORT. The commands that end in their one step: each is a body that answers a state or an error (60_exceptions
R235). Said once: which errors, which fields, and that the byte spaces stay in size. -/

namespace Sys2Proof.Machine

/-! ### Bodies -/

/-- The body of a transactional command: the state it leaves, or the error it ends with. -/
def bodyOf (i : Instr) (s : State) : Except Err State :=
  match i with
  | .srst => .ok { s.resetArch with cmd := 0x01#8 }
  | .tagdec => tagdecBody s
  | .tagenc => tagencBody s
  | .lendec => lendecBody s
  | .lenenc => s.emit (lenEncode s.a0.toNat)
  | .tlvparse => parseAtBody s 0
  | .tlvparseat => parseAtBody s s.a0.toNat
  | .tlvser => tlvserBody s
  | .tlvfind => tlvfindBody s
  | .tlvappend => tlvappendBody s
  | .tlvnewp => tlvnewpBody s
  | .tlvnewc => tlvnewcBody s
  | .tlvsetv => tlvsetvBody s
  | .tlvget => tlvgetBody s
  | .tlvgetv => tlvgetvBody s
  | .tlvclr => .ok { s with nodes := [], ncnt := 0#32, vused := 0#32 }
  | .t1mki => t1mkiBody s
  | .t1mkr => t1mkrBody s
  | .t1mks => t1mksBody s
  | .t1parse => t1parseBody s
  | .t1edc => t1edcBody s
  | _ => .ok s

/-- The commands are the transactional ones and the two of the protocol engine (30_encoding R81). -/
theorem format_cmd_iff {i : Instr} : i.format = .cmd ↔ i ∈ transactional ∨ i = .t1open ∨ i = .t1xmit := by
  cases i <;> simp [Instr.format, transactional]

theorem exec_transactional {i : Instr} (hi : i ∈ transactional) (s : State) :
    exec i s = .next (s.complete (bodyOf i s)) := by
  cases i
  case t1open | t1xmit | pcbI | pcbR | pcbResynchRequest | pcbResynchResponse | pcbIfsRequest | pcbIfsResponse
    | pcbAbortRequest | pcbAbortResponse | pcbWtxRequest | pcbWtxResponse | pcbVppStateErrorResponse =>
    simp [transactional] at hi
  all_goals rfl

/-! ### Errors -/

/-- The errors of `t1_parse` in any mode (30_encoding R103). -/
theorem t1Parse_errors {mode : BitVec 1} {raw : List Byte} {e : Err} (h : t1Parse mode raw = .error e) :
    e = .notImplemented ∨ e = .lengthMismatch ∨ e = .edcError := by
  rcases (by decide : ∀ m : BitVec 1, m = 0#1 ∨ m = 1#1) mode with rfl | rfl
  · exact .inr (t1Parse_error h)
  · cases h
    exact .inl rfl

/-- The child loop of a parse adds no error but its own MalformedTlv. -/
theorem parseKids_error {p : List Byte → Except Err (Tree × List Byte)} {P : Err → Prop} (hmal : P .malformedTlv)
    (hp : ∀ w e, p w = .error e → P e) {fuel : Nat} {w : List Byte} {e : Err} (h : parseKids p fuel w = .error e) :
    P e := by
  induction fuel generalizing w with
  | zero =>
    cases w with
    | nil => cases h
    | cons b w => cases h; exact hmal
  | succ fuel ih =>
    cases w with
    | nil => cases h
    | cons b w =>
      unfold parseKids at h
      split at h
      · next hb => cases h; exact hp _ _ hb
      · split at h
        · next hkids => cases h; exact ih hkids
        · cases h

/-- The errors of the descent (41_tlv_unit R141). -/
theorem parseNode_error {levels : Nat} {w : List Byte} {e : Err} (h : parseNode levels w = .error e) :
    e = .malformedTlv ∨ e = .depthExceeded := by
  induction levels generalizing w e with
  | zero => cases h; exact .inr rfl
  | succ levels ih =>
    unfold parseNode at h
    split at h
    · cases h; exact .inl rfl
    · split at h
      · cases h; exact .inl rfl
      · split at h
        · cases h; exact .inl rfl
        · split at h
          · split at h
            · next hkids =>
              cases h
              exact parseKids_error (P := fun e => e = .malformedTlv ∨ e = .depthExceeded) (.inl rfl)
                (fun _ _ => ih) hkids
            · cases h
          · cases h

theorem parseAtBody_error {s : State} {o : Nat} {e : Err} (h : parseAtBody s o = .error e) :
    e = .malformedTlv ∨ e = .depthExceeded ∨ e = .arenaFull := by
  unfold parseAtBody at h
  split at h
  · next hp => cases h; exact (parseNode_error hp).imp_right .inl
  · split at h
    · next hc => cases h; exact .inr (.inr (State.commit_error hc))
    · cases h

/-- The constructors of frames test the mode and the size; both tests were made before (42_t1_block_unit R172). -/
theorem State.build_error {s : State} {pcb : Byte} {data : List Byte} {e : Err} (h : s.build pcb data = .error e)
    (hmode : s.edcMode ≠ 1#1) : lenMax < data.length ∧ e = .payloadTooLarge := by
  unfold State.build at h
  split at h
  · cases h
  · next hf =>
    cases h
    rcases mkFrame_error.1 hf with ⟨hm, -⟩ | ⟨-, hlen, he⟩
    · exact absurd hm hmode
    · exact ⟨hlen, he⟩

/-- A command of the BER-TLV half raises only the errors of its row (60_exceptions R233). -/
theorem bodyOf_error_tlv {i : Instr} (hi : i ∈ tlvHalf) {s : State} {e : Err} (h : bodyOf i s = .error e) :
    e ∈ errorsOf i := by
  cases i <;> simp only [bodyOf, reduceCtorEq] at h
  case tagdec =>
    unfold tagdecBody at h
    split at h <;> cases h
    next hd => simp [errorsOf, tagDecode_error hd]
  case tagenc =>
    unfold tagencBody at h
    split_ifs at h
    · cases h; simp [errorsOf]
    · simp [errorsOf, (State.emit_error.1 h).2]
  case lendec =>
    unfold lendecBody at h
    split at h <;> cases h
    next hd => simp [errorsOf, lenDecode_error hd]
  case lenenc => simp [errorsOf, (State.emit_error.1 h).2]
  case tlvparse | tlvparseat => simpa [errorsOf] using parseAtBody_error h
  case tlvser =>
    unfold tlvserBody at h
    split at h
    · next hn => cases h; simp [errorsOf, State.node_error hn]
    · simp [errorsOf, (State.emit_error.1 h).2]
  case tlvfind =>
    unfold tlvfindBody at h
    split at h
    · next hn => cases h; simp [errorsOf, State.node_error hn]
    · split_ifs at h
      split at h
      · next hn => cases h; simp [errorsOf, State.node_error hn]
      · split_ifs at h
        cases h; simp [errorsOf]
  case tlvappend =>
    unfold tlvappendBody at h
    split at h
    · split_ifs at h <;> cases h <;> simp [errorsOf]
    · cases h; simp [errorsOf]
  case tlvnewp | tlvnewc =>
    simp only [tlvnewpBody, tlvnewcBody] at h
    split_ifs at h <;> cases h <;> simp [errorsOf]
  case tlvsetv =>
    unfold tlvsetvBody at h
    split at h
    · next hn => cases h; simp [errorsOf, State.node_error hn]
    · split_ifs at h <;> cases h <;> simp [errorsOf]
  case tlvget =>
    unfold tlvgetBody at h
    split at h <;> cases h
    next hn => simp [errorsOf, State.node_error hn]
  case tlvgetv =>
    unfold tlvgetvBody at h
    split at h
    · next hn => cases h; simp [errorsOf, State.node_error hn]
    · split_ifs at h
      · cases h; simp [errorsOf]
      · simp [errorsOf, (State.emit_error.1 h).2]
  all_goals simp [tlvHalf] at hi

/-- A command of the block unit raises only the errors of its row (60_exceptions R233). -/
theorem bodyOf_error_block {i : Instr} (hi : i ∈ t1Half) {s : State} {e : Err} (h : bodyOf i s = .error e) :
    e ∈ errorsOf i := by
  cases i <;> simp only [bodyOf, reduceCtorEq] at h
  case t1mki =>
    unfold t1mkiBody at h
    split_ifs at h with hm hl
    · cases h; simp [errorsOf]
    · cases h; simp [errorsOf]
    · simp [errorsOf, (State.build_error h hm).2]
  case t1mkr =>
    unfold t1mkrBody at h
    split_ifs at h with hm hl
    · cases h; simp [errorsOf]
    · cases h; simp [errorsOf]
    · exact absurd (State.build_error h hm).1 (by simp)
  case t1mks =>
    unfold t1mksBody at h
    split_ifs at h with hm hc hl
    · cases h; simp [errorsOf]
    · cases h; simp [errorsOf]
    · simp [errorsOf, (State.build_error h hm).2]
    · cases h; simp [errorsOf]
  case t1parse =>
    unfold t1parseBody at h
    split at h <;> cases h
    next hp => simpa [errorsOf] using t1Parse_errors hp
  case t1edc =>
    unfold t1edcBody at h
    split_ifs at h
    cases h; simp [errorsOf]
  all_goals simp [t1Half] at hi

/-- A transactional command raises only the errors of its row (60_exceptions R233). -/
theorem bodyOf_error {i : Instr} {s : State} {e : Err} (h : bodyOf i s = .error e) : e ∈ errorsOf i := by
  by_cases htlv : i ∈ tlvHalf
  · exact bodyOf_error_tlv htlv h
  · by_cases ht1 : i ∈ t1Half
    · exact bodyOf_error_block ht1 h
    · cases i <;> simp [tlvHalf, t1Half, bodyOf] at htlv ht1 h

/-- How a transactional command ends: with the state of its body and DONE, or with an error of its row and nothing else
changed (60_exceptions R235). -/
theorem exec_transactional_cases {i : Instr} (hi : i ∈ transactional) {s t : State} (h : exec i s = .next t) :
    (∃ u, bodyOf i s = .ok u ∧ t = u.finish) ∨ ∃ e ∈ errorsOf i, t = s.raise e := by
  rw [exec_transactional hi] at h
  cases h
  rcases s.complete_cases (bodyOf i s) with ⟨u, hu, heq⟩ | ⟨e, he, heq⟩
  · exact .inl ⟨u, hu, heq⟩
  · exact .inr ⟨e, bodyOf_error he, heq⟩

/-- Settles O47: an error is raised on the state the command began in. -/
theorem transactionalErrorsChangeNothing : Obligations.TransactionalErrorsChangeNothing := by
  unfold Obligations.TransactionalErrorsChangeNothing
  intro i s t hi h hstatus
  rcases exec_transactional_cases hi h with ⟨u, -, rfl⟩ | ⟨e, he, rfl⟩
  · exact absurd rfl hstatus
  · exact ⟨e, he, rfl⟩

/-! ### Fields -/

/-- `s` with the results of `t`: R0 to R3, the counts TLEN, NCNT, VUSED, DLEN, FLEN, the buffers and the arena. -/
def State.withResults (s t : State) : State :=
  { s with
    r0 := t.r0, r1 := t.r1, r2 := t.r2, r3 := t.r3, tlen := t.tlen, ncnt := t.ncnt, vused := t.vused, dlen := t.dlen
    flen := t.flen, tb := t.tb, db := t.db, fb := t.fb, nodes := t.nodes }

theorem State.withResults_of_emit {s t : State} {bs : List Byte} (h : s.emit bs = .ok t) : t = s.withResults t := by
  obtain ⟨-, rfl⟩ := State.emit_ok.1 h
  rfl

theorem State.withResults_of_build {s t : State} {pcb : Byte} {data : List Byte} (h : s.build pcb data = .ok t) :
    t = s.withResults t := by
  unfold State.build at h
  split at h <;> cases h
  rfl

theorem withResults_of_parseAtBody {s t : State} {o : Nat} (h : parseAtBody s o = .ok t) : t = s.withResults t := by
  unfold parseAtBody at h
  split at h
  · cases h
  · split at h
    · cases h
    · next hc =>
      obtain ⟨-, -, -, rfl⟩ := State.commit_ok.1 hc
      cases h
      rfl

/-- No transactional command but SRST writes anything but results. -/
theorem withResults_of_bodyOf {i : Instr} (hi : i ≠ .srst) {s t : State} (h : bodyOf i s = .ok t) :
    t = s.withResults t := by
  cases i <;> simp only [bodyOf] at h
  case srst => exact absurd rfl hi
  case lenenc => exact State.withResults_of_emit h
  case tlvparse | tlvparseat => exact withResults_of_parseAtBody h
  case tagenc =>
    unfold tagencBody at h
    split_ifs at h
    exact State.withResults_of_emit h
  case tlvser =>
    unfold tlvserBody at h
    split at h
    · cases h
    · exact State.withResults_of_emit h
  case tlvgetv =>
    unfold tlvgetvBody at h
    split at h
    · cases h
    · split_ifs at h
      exact State.withResults_of_emit h
  case t1mki | t1mkr | t1mks =>
    simp only [t1mkiBody, t1mkrBody, t1mksBody] at h
    split_ifs at h
    exact State.withResults_of_build h
  case tagdec | lendec | tlvfind | tlvappend | tlvnewp | tlvnewc | tlvsetv | tlvget | t1parse | t1edc =>
    simp only [tagdecBody, lendecBody, tlvfindBody, tlvappendBody, tlvnewpBody, tlvnewcBody, tlvsetvBody, tlvgetBody,
      t1parseBody, t1edcBody] at h
    repeat' split at h
    all_goals cases h
    all_goals rfl
  all_goals
    cases h
    rfl

end Sys2Proof.Machine
end

section
/-! SUPPORT. Byte spaces in size and counts in range (20_memory R60, 10_state R21): one rule for each operation that
stores octets, then the transactional commands and the HOST accesses. -/

namespace Sys2Proof.Machine

/-- Every byte space canonical and inside its size, every count in its range. -/
def State.InSize (s : State) : Prop := s.MemoryInv ∧ s.CountInv

/-- The part of the state that `State.InSize` speaks of. -/
def State.spaces (s : State) : Config × (Memory × Memory × Memory × Memory × Memory) ×
    Word × BitVec 16 × BitVec 16 × BitVec 16 :=
  (s.cfg, (s.tb, s.db, s.fb, s.ls0, s.ls1), s.tlen, s.flen, s.ls0len, s.ls1len)

theorem State.InSize.of_spaces {s t : State} (h : s.InSize) (ht : t.spaces = s.spaces) : t.InSize := by
  simp only [State.spaces, Prod.mk.injEq] at ht
  obtain ⟨hc, ⟨htb, hdb, hfb, h0, h1⟩, htl, hfl, hl0, hl1⟩ := ht
  exact ⟨h.1.congr hc htb hdb hfb h0 h1, h.2.congr hc htl hfl hl0 hl1⟩

/-! ### What stores octets -/

/-- The 16-bit register of a length takes it unchanged. -/
theorem toNat_length16 {bs : List Byte} (h : bs.length ≤ fbCap) : (BitVec.ofNat 16 bs.length).toNat = bs.length := by
  have hcap : fbCap = 259 := rfl
  rw [BitVec.toNat_ofNat]
  exact Nat.mod_eq_of_lt (by omega)

theorem State.InSize.emit {s t : State} (h : s.InSize) {bs : List Byte} (ht : s.emit bs = .ok t) : t.InSize := by
  obtain ⟨hm, hc⟩ := h
  obtain ⟨hroom, rfl⟩ := State.emit_ok.1 ht
  refine ⟨{ hm with
    tb_wf := Memory.writeRange_wf hm.tb_wf _ _
    tb_fits := Memory.writeRange_fits hm.tb_fits hroom }, { hc with tlen := ?_ }⟩
  exact Nat.le_trans ((BitVec.toNat_ofNat _ _).trans_le (Nat.mod_le _ _)) hroom

theorem State.InSize.storeFrame {s : State} (h : s.InSize) {raw : List Byte} (hraw : raw.length ≤ fbCap) :
    (s.storeFrame raw).InSize := by
  obtain ⟨hm, hc⟩ := h
  refine ⟨{ hm with
    fb_wf := Memory.writeRange_wf hm.fb_wf _ _
    fb_fits := Memory.writeRange_fits hm.fb_fits (by omega) }, { hc with flen := ?_ }⟩
  rw [State.storeFrame_flen, toNat_length16 hraw]
  exact hraw

theorem State.InSize.storeData {s : State} (h : s.InSize) {data : List Byte} (hdata : data.length ≤ lenMax) :
    (s.storeData data).InSize := by
  have hcap : lenMax < dbCap := by decide
  obtain ⟨hm, hc⟩ := h
  exact ⟨{ hm with
    db_wf := Memory.writeRange_wf hm.db_wf _ _
    db_fits := Memory.writeRange_fits hm.db_fits (by omega) }, { hc with }⟩

theorem State.InSize.storeSlot {s : State} (h : s.InSize) (p : BitVec 1) {raw : List Byte} (hmin : 4 ≤ raw.length)
    (hmax : raw.length ≤ lsCap) : (s.storeSlot p raw).InSize := by
  have hlen : (BitVec.ofNat 16 raw.length).toNat = raw.length :=
    toNat_length16 (Nat.le_trans hmax (by decide))
  obtain ⟨hm, hc⟩ := h
  unfold State.storeSlot
  split
  · exact ⟨{ hm with
      ls0_wf := Memory.writeRange_wf hm.ls0_wf _ _
      ls0_fits := Memory.writeRange_fits hm.ls0_fits (by omega) }, { hc with ls0len := .inr (by simp [*]) }⟩
  · exact ⟨{ hm with
      ls1_wf := Memory.writeRange_wf hm.ls1_wf _ _
      ls1_fits := Memory.writeRange_fits hm.ls1_fits (by omega) }, { hc with ls1len := .inr (by simp [*]) }⟩

/-- All spaces empty, all counts 0: what both resets leave (10_state R47). -/
theorem State.inSize_resetWith (c : Config) : (State.resetWith c).InSize :=
  have fits : ∀ n, ∀ c ∈ ([] : Memory), c.1 < n := fun _ _ hc => absurd hc List.not_mem_nil
  ⟨⟨Memory.wf_nil, Memory.wf_nil, Memory.wf_nil, Memory.wf_nil, Memory.wf_nil, fits _, fits _, fits _, fits _, fits _⟩,
    ⟨Nat.zero_le _, Nat.zero_le _, .inl rfl, .inl rfl⟩⟩

theorem State.inSize_resetArch (s : State) : s.resetArch.InSize :=
  (State.inSize_resetWith s.cfg).of_spaces rfl

/-! ### The transactional commands -/

/-- A frame that was built has at most 258 octets (20_memory R60). -/
theorem State.InSize.build {s t : State} (h : s.InSize) {pcb : Byte} {data : List Byte}
    (ht : s.build pcb data = .ok t) : t.InSize := by
  unfold State.build at ht
  split at ht
  · next hf =>
    cases ht
    obtain ⟨-, hlen, rfl⟩ := mkFrame_ok.1 hf
    have hcap : lenMax + 4 ≤ fbCap := by decide
    refine (h.storeFrame ?_).of_spaces rfl
    rw [List.length_append, length_frameHead, List.length_singleton]
    omega
  · cases ht

/-- A parsed frame has at most 254 data octets (30_encoding R103). -/
theorem length_data_of_t1Parse {mode : BitVec 1} {raw : List Byte} {b : Block} (h : t1Parse mode raw = .ok b) :
    b.data.length ≤ lenMax := by
  obtain ⟨-, hlen, htotal, -, rfl⟩ := t1Parse_ok h
  have hmax : lenMax = 254 := rfl
  simp only [List.length_take, List.length_drop]
  omega

theorem spaces_of_parseAtBody {s t : State} {o : Nat} (h : parseAtBody s o = .ok t) : t.spaces = s.spaces := by
  unfold parseAtBody at h
  split at h
  · cases h
  · split at h
    · cases h
    · next hc =>
      obtain ⟨-, -, -, rfl⟩ := State.commit_ok.1 hc
      cases h
      rfl

theorem State.InSize.bodyOf {i : Instr} {s t : State} (h : s.InSize) (ht : bodyOf i s = .ok t) : t.InSize := by
  cases i <;> simp only [Machine.bodyOf] at ht
  case srst => cases ht; exact s.inSize_resetArch.of_spaces rfl
  case lenenc => exact h.emit ht
  case tagenc =>
    unfold tagencBody at ht
    split_ifs at ht
    exact h.emit ht
  case tlvser =>
    unfold tlvserBody at ht
    split at ht
    · cases ht
    · exact h.emit ht
  case tlvgetv =>
    unfold tlvgetvBody at ht
    split at ht
    · cases ht
    · split_ifs at ht
      exact h.emit ht
  case tlvparse | tlvparseat => exact h.of_spaces (spaces_of_parseAtBody ht)
  case t1mki | t1mkr | t1mks =>
    simp only [t1mkiBody, t1mkrBody, t1mksBody] at ht
    split_ifs at ht
    exact h.build ht
  case t1parse =>
    unfold t1parseBody at ht
    split at ht
    · cases ht
    · next hp =>
      cases ht
      exact (h.storeData (length_data_of_t1Parse hp)).of_spaces rfl
  case tagdec | lendec | tlvfind | tlvappend | tlvnewp | tlvnewc | tlvsetv | tlvget | t1edc =>
    refine h.of_spaces ?_
    simp only [tagdecBody, lendecBody, tlvfindBody, tlvappendBody, tlvnewpBody, tlvnewcBody, tlvsetvBody, tlvgetBody,
      t1edcBody] at ht
    repeat' split at ht
    all_goals cases ht
    all_goals rfl
  all_goals
    cases ht
    exact h.of_spaces rfl

/-! ### HOST accesses -/

theorem State.InSize.writeReg {s : State} (h : s.InSize) (n : Nat) (v : Word) : (s.writeReg n v).InSize := by
  unfold State.writeReg
  split
  case h_5 => -- TLEN
    split
    · exact h
    · exact ⟨h.1.congr rfl rfl rfl rfl rfl rfl, { h.2 with tlen := by simpa using Nat.le_of_not_lt ‹_› }⟩
  case h_7 => -- FLEN
    split
    · exact h
    · next hfits =>
      refine ⟨h.1.congr rfl rfl rfl rfl rfl rfl, { h.2 with flen := ?_ }⟩
      exact Nat.le_trans (by simpa using Nat.mod_le _ _) (Nat.le_of_not_lt hfits)
  all_goals exact h.of_spaces rfl

theorem State.InSize.writeByte {s : State} (h : s.InSize) (sp : Space) (off : Nat) (b : Byte) :
    (s.writeByte sp off b).InSize := by
  obtain ⟨hm, hc⟩ := h
  unfold State.writeByte
  split
  · next hoff =>
    cases sp with
    | tb => exact ⟨{ hm with
        tb_wf := Memory.write_wf hm.tb_wf _ _, tb_fits := Memory.write_fits hm.tb_fits hoff }, { hc with }⟩
    | db => exact ⟨{ hm with
        db_wf := Memory.write_wf hm.db_wf _ _, db_fits := Memory.write_fits hm.db_fits hoff }, { hc with }⟩
    | fb => exact ⟨{ hm with
        fb_wf := Memory.write_wf hm.fb_wf _ _, fb_fits := Memory.write_fits hm.fb_fits hoff }, { hc with }⟩
    | ls0 => exact ⟨hm, hc⟩
    | ls1 => exact ⟨hm, hc⟩
  · exact ⟨hm, hc⟩

end Sys2Proof.Machine
end

section
/-! SUPPORT. The protocol engine between two `exchange` calls, said once: an arm first writes the session, then the
command ends without error, ends with an error, or makes its next call (43_t1_protocol R192 to R204). -/

namespace Sys2Proof.Machine

/-! ### What an answer can come to -/

/-- What an arm writes before the command ends or calls: nothing, RSEQ (R193), both sequence bits (R200), or SSEQ and
the slot of an R-block (R196). -/
inductive Prepared (s : State) (w : Work) : State → Prop where
  | same : Prepared s w s
  | toggled : Prepared s w { s with rseq := s.rseq ^^^ 1#1 }
  | cleared : Prepared s w { s with sseq := 0#1, rseq := 0#1 }
  | nacked : Prepared s w
      (({ s with sseq := s.sseq ^^^ 1#1 } : State).storeSlot (s.sseq ^^^ 1#1) (s.edcFrame w))

/-- The errors that end internal_transmit or the attempt of T1OPEN it runs in (R192 to R201, R207). -/
inductive Cause (c : Config) (w : Work) : Err → Prop where
  | retries : Cause c w .tooManyRetries
  | slot : Cause c w .resendSlotEmpty
  | block : (w.job = .xmit → c.unknownReply = .fail) → Cause c w .unexpectedBlock
  | data : lenMax < (frameFields w.rx).data.length → Cause c w .payloadTooLarge
  | line : Cause c w .transportError
  | size : Cause c w .lengthMismatch

/-- How a command ends with an error: T1XMIT with the cause itself (R202), T1OPEN with InitFailed of it (R201). -/
inductive Aborts (c : Config) (w : Work) : Err → BitVec 8 → Prop where
  | xmit {e : Err} : w.job = .xmit → Cause c w e → Aborts c w e 0#8
  | opening {a : Nat} {ph : Phase} {e : Err} : w.job = .opening a ph → Cause c w e → Aborts c w .initFailed e.code

/-- What the recursive call of internal_transmit sends (R194, R195, R196, R199). -/
inductive Resent (s : State) (w : Work) : List Byte → Prop where
  | slot {p : BitVec 1} : s.slotLen p ≠ 0#16 → Resent s w (s.slot p)
  | wtx : (frameFields w.rx).data.length ≤ lenMax →
      Resent s w (wtxFrame s (nadDst (frameFields w.out).nad) (frameFields w.rx).data)
  | nack : Resent s w (s.edcFrame w)
  | same : Resent s w w.out

/-- The next `exchange` call: of the same internal_transmit, of the next attempt, or of the IFS half
(R192, R200, R201). -/
inductive Calls (s : State) (w : Work) : Job → Nat → List Byte → Prop where
  | again {out : List Byte} : w.retries - 1 ≠ 0 → Resent s w out → Calls s w w.job (w.retries - 1) out
  | attempt {a : Nat} {ph : Phase} {k : Nat} : w.job = .opening a ph → s.cfg.openAttempts - a = k + 1 →
      s.cfg.retryBudget ≠ 0 →
      Calls s w (.opening (s.cfg.openAttempts - k) .resynch) s.cfg.retryBudget s.resynchFrame
  | ifs {a : Nat} : w.job = .opening a .resynch → s.cfg.retryBudget ≠ 0 →
      Calls s w (.opening a .ifs) s.cfg.retryBudget s.ifsFrame

/-- How a command goes on from the state an arm has prepared. -/
inductive Leads (s : State) (w : Work) : State → Prop where
  | sent {b : Block} : w.job = .xmit → b.data = (frameFields w.rx).data → Leads s w (s.endXmit b)
  | opened {a : Nat} {v : BitVec 8} : w.job = .opening a .ifs →
      Leads s w ({ s with ifs := v, work := none } : State).finish
  | aborts {e : Err} {sub : BitVec 8} : Aborts s.cfg w e sub → Leads s w (s.abortWith e sub)
  | calls {j : Job} {r : Nat} {out : List Byte} : Calls s w j r out → Leads s w (s.callExchange j r out)

/-- What an answer can come to while the command with the working storage `w` waits. -/
def Moves (s : State) (w : Work) (t : State) : Prop := ∃ u, Prepared s w u ∧ Leads u w t

theorem Leads.moves {s t : State} {w : Work} (h : Leads s w t) : Moves s w t := ⟨s, .same, h⟩

/-! ### The shared operations -/

theorem Cause.leads {s : State} {w : Work} {e : Err} (h : Cause s.cfg w e) : Leads s w (s.failJob w.job e) := by
  cases hj : w.job with
  | xmit => exact .aborts (.xmit hj h)
  | opening a ph =>
    rw [State.failJob_opening]
    rcases s.tryOpen_cases (s.cfg.openAttempts - a) e.code with ⟨sub, heq, hsub⟩ | ⟨k, hk, hb, heq⟩
    · rw [heq]
      rcases hsub with ⟨-, rfl⟩ | ⟨-, -, rfl⟩
      · exact .aborts (.opening hj h)
      · exact .aborts (.opening hj .retries)
    · rw [heq]
      exact .calls (.attempt hj hk hb)

theorem Resent.leads {s : State} {w : Work} {out : List Byte} (h : Resent s w out) :
    Leads s w (s.retransmit w out) := by
  unfold State.retransmit
  by_cases hr : w.retries - 1 = 0
  · rw [hr, State.transmit_zero]
    exact Cause.retries.leads
  · rw [State.transmit_pos _ _ hr]
    exact .calls (.again hr h)

theorem State.armUnknown_leads (s : State) (w : Work) : Leads s w (s.armUnknown w) := by
  unfold State.armUnknown
  split
  · exact Resent.same.leads
  · next hpolicy => exact (Cause.block fun _ => hpolicy).leads

theorem State.endResynch_eq (s : State) (a : Nat) (b : Block) : s.endResynch a b =
    if blockType b.pcb = .S ∧ pcbSCode b.pcb = s.cfg.scode.resynchResponse then
      ({ s with sseq := 0#1, rseq := 0#1 } : State).transmit (.opening a .ifs) s.cfg.retryBudget s.ifsFrame
    else s.failJob (.opening a .resynch) .unexpectedBlock := rfl

/-- A returned block ends T1XMIT; it ends a half of T1OPEN, or the attempt (43_t1_protocol R200 to R202). -/
theorem State.returnBlock_leads (s : State) {w : Work} {b : Block} (hb : b.data = (frameFields w.rx).data) :
    Leads s w (s.returnBlock w.job b) ∨
      Leads { s with sseq := 0#1, rseq := 0#1 } w (s.returnBlock w.job b) := by
  match hj : w.job with
  | .xmit => exact .inl (.sent hj hb)
  | .opening a .resynch =>
    show Leads s w (s.endResynch a b) ∨ Leads _ w (s.endResynch a b)
    rw [State.endResynch_eq]
    split
    · refine .inr ?_
      by_cases hbudget : s.cfg.retryBudget = 0
      · rw [hbudget, State.transmit_zero, State.failJob_opening,
          ← State.failJob_opening _ a .resynch, ← hj]
        exact Cause.retries.leads
      · rw [State.transmit_pos _ _ hbudget]
        exact .calls (.ifs hj hbudget)
    · rw [← hj]
      exact .inl (Cause.block fun hx => by rw [hj] at hx; cases hx).leads
  | .opening a .ifs =>
    show Leads s w (s.endIfs a b) ∨ Leads _ w (s.endIfs a b)
    unfold State.endIfs
    refine .inl ?_
    split
    · exact .opened hj
    · rw [← hj]
      exact (Cause.block fun hx => by rw [hj] at hx; cases hx).leads

theorem State.returnBlock_moves (s : State) {w : Work} {b : Block} (hb : b.data = (frameFields w.rx).data) :
    Moves s w (s.returnBlock w.job b) :=
  (s.returnBlock_leads hb).elim Leads.moves fun h => ⟨_, .cleared, h⟩

theorem State.armI_moves (s : State) {w : Work} {b : Block} (hb : b.data = (frameFields w.rx).data) :
    Moves s w (s.armI w b) :=
  (State.returnBlock_leads _ hb).elim (fun h => ⟨_, .toggled, h⟩) fun h => ⟨_, .cleared, h⟩

theorem State.armR_leads (s : State) (w : Work) (nr : BitVec 1) : Leads s w (s.armR w nr) := by
  unfold State.armR
  split
  · exact Cause.slot.leads
  · next hne => exact (Resent.slot hne).leads

theorem State.armWtx_leads (s : State) (w : Work) : Leads s w (s.armWtx w (frameFields w.rx).data) := by
  unfold State.armWtx
  split
  · next hf =>
    obtain ⟨-, hlen, rfl⟩ := mkFrame_ok.1 hf
    exact (Resent.wtx hlen).leads
  · next hf =>
    rcases mkFrame_error.1 hf with ⟨hmode, -⟩ | ⟨-, hlen, rfl⟩
    · cases hmode
    · exact (Cause.data hlen).leads

theorem State.edcFrame_storeSlot (s : State) (w : Work) (p : BitVec 1) (raw : List Byte) (q : BitVec 1) :
    (({ s with sseq := q } : State).storeSlot p raw).edcFrame w = s.edcFrame w := by
  simp [State.edcFrame]

theorem State.armEdc_moves (s : State) (w : Work) : Moves s w (s.armEdc w) := by
  refine ⟨_, .nacked, ?_⟩
  have hframe := s.edcFrame_storeSlot w (s.sseq ^^^ 1#1) (s.edcFrame w) (s.sseq ^^^ 1#1)
  have h := (Resent.nack (s := (({ s with sseq := s.sseq ^^^ 1#1 } : State).storeSlot (s.sseq ^^^ 1#1)
    (s.edcFrame w))) (w := w)).leads
  rwa [hframe] at h

/-- The arm of a PCB octet (43_t1_protocol R192 to R199). -/
theorem State.reply_moves {s : State} {w : Work} (h : s.work = some w) {i : Instr} (hi : i.format = .pcb) :
    Moves s w (s.reply i) := by
  cases i
  all_goals simp only [State.reply, State.whileWaiting_some h]
  case pcbI => exact s.armI_moves rfl
  case pcbR => exact (s.armR_leads w _).moves
  case pcbWtxRequest => exact (s.armWtx_leads w).moves
  case pcbResynchResponse | pcbIfsResponse =>
    simp only [State.armResynch, State.armIfs]
    split
    · exact s.returnBlock_moves rfl
    · exact (s.armUnknown_leads w).moves
  case pcbResynchRequest | pcbIfsRequest | pcbAbortRequest | pcbAbortResponse | pcbWtxResponse
    | pcbVppStateErrorResponse => exact (s.armUnknown_leads w).moves
  all_goals cases hi

/-! ### Answers -/

/-- What the engine does next does not depend on STATUS and the working storage it finds: it writes both. -/
theorem Leads.of_running {s t : State} {w : Work} {st : Word} {x : Option Work}
    (h : Leads { s with status := st, work := x } w t) : Leads s w t := by
  cases h with
  | sent hj hb =>
    have := Leads.sent (s := s) hj hb
    rw [State.endXmit_eq] at this ⊢
    exact this
  | opened hj => exact .opened (s := s) hj
  | aborts ha => exact .aborts (s := s) ha
  | calls hc =>
    refine .calls (s := s) ?_
    cases hc with
    | attempt hj hk hb => exact .attempt (s := s) hj hk hb
    | ifs hj hb => exact .ifs (s := s) hj hb
    | again hr hout =>
      refine .again hr ?_
      cases hout with
      | slot hne => exact .slot (s := s) hne
      | wtx hlen => exact .wtx (s := s) hlen
      | nack => exact .nack (s := s)
      | same => exact .same

theorem State.storeSlot_running (s : State) (p : BitVec 1) (raw : List Byte) (st : Word) (x : Option Work) :
    ({ s with status := st, work := x } : State).storeSlot p raw =
      { s.storeSlot p raw with status := st, work := x } := by
  unfold State.storeSlot
  split <;> rfl

theorem Moves.of_running {s t : State} {w : Work} {st : Word} {x : Option Work}
    (h : Moves { s with status := st, work := x } w t) : Moves s w t := by
  obtain ⟨u, hu, ht⟩ := h
  cases hu with
  | same => exact ⟨_, .same, ht.of_running⟩
  | toggled => exact ⟨_, .toggled, ht.of_running⟩
  | cleared => exact ⟨_, .cleared, ht.of_running⟩
  | nacked =>
    refine ⟨_, .nacked, ?_⟩
    rw [State.storeSlot_running { s with sseq := s.sseq ^^^ 1#1 }] at ht
    exact ht.of_running

/-- The data field of a frame that `t1_parse` accepts has at most 254 octets. -/
theorem length_data_of_goodFrame {raw : List Byte} {b : Block} (h : t1Parse 0#1 raw = .ok b) :
    (frameFields raw).data.length ≤ lenMax := by
  rw [frameFields_of_parse h]
  exact length_data_of_t1Parse h

/-- What an answer to a waiting command comes to. The frame it runs on, if any, has at most 254 data octets. -/
theorem State.answer_moves {s : State} {w : Work} (h : s.work = some w) (a : Answer) :
    ∃ rx, (frameFields rx).data.length ≤ lenMax ∧ Moves s { w with rx := rx } (s.answer a) := by
  have hnone : (frameFields []).data.length ≤ lenMax := by decide
  have hfail : ∀ (x : Option Work) (e : Err), Cause s.cfg { w with rx := [] } e →
      Moves s { w with rx := [] } (({ s with work := x } : State).failJob w.job e) := fun x e hc =>
    Moves.of_running (Cause.leads (s := { s with work := x }) hc).moves
  unfold State.answer
  rcases s.receive_cases a with ⟨hn, -⟩ | ⟨w', hw, hc⟩
  · rw [h] at hn; cases hn
  rw [h] at hw; cases hw
  rcases hc with ⟨-, hr⟩ | ⟨g, -, ⟨-, hr⟩ | ⟨-, hr⟩ | ⟨b, hb, hc⟩⟩
  · rw [hr]
    exact ⟨[], hnone, hfail s.work _ .line⟩
  · rw [hr]
    exact ⟨[], hnone, hfail _ _ .size⟩
  · rw [hr]
    exact ⟨[], hnone, Moves.of_running (State.armEdc_moves _ { w with rx := [] })⟩
  · refine ⟨g.take fbCap, length_data_of_goodFrame hb, ?_⟩
    rcases hc with ⟨e, -, hr⟩ | ⟨i, hd, hr⟩ <;> rw [hr]
    · exact Moves.of_running (State.armUnknown_leads _ _).moves
    · exact Moves.of_running (State.reply_moves (s := { s with work := some { w with rx := g.take fbCap } }) rfl
        (format_of_decodePcb hd))

/-- An answer that no exchange asked for changes nothing (log entry 7). -/
theorem State.answer_idle {s : State} (h : s.work = none) (a : Answer) : s.answer a = s := by
  rcases s.receive_cases a with ⟨-, hr⟩ | ⟨w, hw, -⟩
  · rw [State.answer, hr]
  · rw [h] at hw; cases hw

/-- What holds of a waiting state and is kept whatever an answer comes to holds after every answer. -/
theorem State.answer_keeps {P : State → Prop}
    (hP : ∀ (s t : State) (w : Work) (rx : List Byte), s.work = some w → (frameFields rx).data.length ≤ lenMax →
      Moves s { w with rx := rx } t → P s → P t) (s : State) (a : Answer) (h : P s) : P (s.answer a) := by
  cases hw : s.work with
  | none => rwa [State.answer_idle hw]
  | some w =>
    obtain ⟨rx, hrx, hm⟩ := State.answer_moves hw a
    exact hP s _ w rx hw hrx hm h

end Sys2Proof.Machine
end

section
/-! SUPPORT. What each event keeps, packaged once for all invariants of the step; how T1OPEN and T1XMIT begin; and the
invariants of the byte spaces and of STATUS (10_state R21, R24, 20_memory R60). -/

namespace Sys2Proof.Machine

/-! ### One step -/

/-- A decoded code of CMD names a command. -/
theorem format_of_decodeCommand {c : Byte} {i : Instr} (h : decodeCommand c = .ok i) : i.format = .cmd :=
  (encodeOctet_of_mem_commandTable SCode.standard _ (decodeCommand_ok_iff.1 h)).1

/-- What every kind of event keeps, every step keeps: the answers, the reset, the HOST accesses, and the commands from
the state that `State.start` leaves. -/
theorem step_keeps {P : State → Prop} (inputs : ∀ s es, P s → P { s with inputs := es })
    (answer : ∀ s a, P s → P (s.answer a)) (reset : ∀ s, P s → P s.resetArch)
    (read : ∀ s v, P s → P { s with hostData := v }) (writeReg : ∀ s n v, P s → P (s.writeReg n v))
    (writeByte : ∀ s sp off b, P s → P (s.writeByte sp off b))
    (illegal : ∀ s c, s.busy = false → P s → P ((s.start c).raise .illegalCommand))
    (command : ∀ i s t c, i.format = .cmd → s.busy = false → P s → exec i (s.start c) = .next t → P t)
    {s t : State} (h : P s) (ht : step s = .next t) : P t := by
  match hin : s.inputs with
  | [] =>
    rw [step_nil hin] at ht
    cases ht
    exact h
  | .line a :: rest =>
    rw [step_line hin] at ht
    cases ht
    exact answer _ a (inputs s rest h)
  | .hardReset :: rest =>
    rw [step_cons hin] at ht
    cases ht
    exact reset _ (inputs s rest h)
  | .host a :: rest =>
    have hrest := inputs s rest h
    rw [step_cons hin] at ht
    change (State.hostAccess _ a).outcome = _ at ht
    cases a with
    | readReg n => cases ht; exact read _ _ hrest
    | readByte sp off => cases ht; exact read _ _ hrest
    | writeByte sp off b =>
      simp only [State.hostAccess] at ht
      split at ht <;> cases ht
      · exact hrest
      · exact writeByte _ sp off b hrest
    | writeReg n v =>
      simp only [State.hostAccess] at ht
      split at ht
      · cases ht; exact hrest
      · next hbusy =>
        have hidle := Bool.not_eq_true _ ▸ hbusy
        split at ht
        · rcases State.writeCmd_cases { s with inputs := rest } v with ⟨i, hi, hw⟩ | ⟨e, -, hw⟩ <;> rw [hw] at ht
          · exact command i _ t _ (format_of_decodeCommand hi) hidle hrest ht
          · cases ht
            exact illegal _ _ hidle hrest
        · cases ht
          exact writeReg _ n v hrest

/-! ### The beginning of T1OPEN and T1XMIT -/

/-- The I-block of T1XMIT (43_t1_protocol R202, R206). -/
def State.xmitFrame (s : State) : List Byte :=
  frameHead s.haddr (addrSrc s.a0) (pcbI s.sseq) s.dbData ++
    [lrc (frameHead s.haddr (addrSrc s.a0) (pcbI s.sseq) s.dbData)]

/-- How T1OPEN and T1XMIT begin (43_t1_protocol R200, R202): refused by a test, failed for want of an attempt or of a
retry, or with the first call. -/
inductive Begins (s : State) : Instr → State → Prop where
  | openRefused : Begins s .t1open (s.raise .notImplemented)
  | openFailed {sub : BitVec 8} : sub = 0#8 ∨ sub = Err.tooManyRetries.code →
      Begins s .t1open (s.abortWith .initFailed sub)
  | openCalls : 1 ≤ s.cfg.openAttempts → s.cfg.retryBudget ≠ 0 →
      Begins s .t1open (s.callExchange (.opening 1 .resynch) s.cfg.retryBudget s.resynchFrame)
  | xmitRefused {e : Err} : e = .payloadTooLarge ∨ e = .notImplemented → Begins s .t1xmit (s.raise e)
  | xmitFailed : s.dlen.toNat ≤ lenMax →
      Begins s .t1xmit ((s.storeSlot s.sseq s.xmitFrame).abortWith .tooManyRetries 0#8)
  | xmitCalls : s.dlen.toNat ≤ lenMax → s.cfg.retryBudget ≠ 0 →
      Begins s .t1xmit ((s.storeSlot s.sseq s.xmitFrame).callExchange .xmit s.cfg.retryBudget s.xmitFrame)

theorem exec_t1open (s : State) : exec .t1open s = .next (State.serve s.inputs s.beginOpen) := rfl

theorem exec_t1xmit (s : State) : exec .t1xmit s = .next (State.serve s.inputs s.beginXmit) := rfl

theorem State.beginOpen_begins (s : State) : Begins s .t1open s.beginOpen := by
  unfold State.beginOpen
  split
  · exact .openRefused
  · rcases s.tryOpen_cases s.cfg.openAttempts 0#8 with ⟨sub, heq, hsub⟩ | ⟨k, hk, hb, heq⟩ <;> rw [heq]
    · exact .openFailed (hsub.imp And.right fun h => h.2.2)
    · rw [hk, Nat.add_sub_cancel_left]
      exact .openCalls (by omega) hb

/-- The three tests of T1XMIT, then the I-block is stored and handed to internal_transmit (43_t1_protocol R202). -/
theorem State.beginXmit_cases (s : State) :
    (s.ifs.toNat < s.dlen.toNat ∧ s.beginXmit = s.raise .payloadTooLarge) ∨
      (s.dlen.toNat ≤ s.ifs.toNat ∧
        ((s.edcMode = 1#1 ∧ s.beginXmit = s.raise .notImplemented) ∨
          (s.edcMode ≠ 1#1 ∧
            ((lenMax < s.dlen.toNat ∧ s.beginXmit = s.raise .payloadTooLarge) ∨
              (s.dlen.toNat ≤ lenMax ∧ s.beginXmit =
                (s.storeSlot s.sseq s.xmitFrame).transmit .xmit s.cfg.retryBudget s.xmitFrame))))) := by
  unfold State.beginXmit
  split
  · next hifs => exact .inl ⟨hifs, rfl⟩
  · next hifs =>
    refine .inr ⟨Nat.le_of_not_lt hifs, ?_⟩
    split
    · next hf =>
      rcases mkFrame_error.1 hf with ⟨hmode, rfl⟩ | ⟨hmode, hlen, rfl⟩
      · exact .inl ⟨hmode, rfl⟩
      · exact .inr ⟨hmode, .inl ⟨by simpa using hlen, rfl⟩⟩
    · next hf =>
      obtain ⟨hmode, hlen, rfl⟩ := mkFrame_ok.1 hf
      exact .inr ⟨hmode, .inr ⟨by simpa using hlen, rfl⟩⟩

theorem State.beginXmit_begins (s : State) : Begins s .t1xmit s.beginXmit := by
  rcases s.beginXmit_cases with ⟨-, heq⟩ | ⟨-, ⟨-, heq⟩ | ⟨-, ⟨-, heq⟩ | ⟨hlen, heq⟩⟩⟩ <;> rw [heq]
  · exact .xmitRefused (.inl rfl)
  · exact .xmitRefused (.inr rfl)
  · exact .xmitRefused (.inl rfl)
  · by_cases hb : s.cfg.retryBudget = 0
    · rw [hb, State.transmit_zero]
      exact .xmitFailed hlen
    · rw [State.transmit_pos _ _ hb]
      exact .xmitCalls hlen hb

/-- A command of the engine begins, then serves the answers that stand next. -/
theorem exec_t1_begins {i : Instr} (hi : i = .t1open ∨ i = .t1xmit) {s t : State} (h : exec i s = .next t) :
    ∃ u, Begins s i u ∧ t = State.serve s.inputs u := by
  rcases hi with rfl | rfl
  · rw [exec_t1open] at h
    cases h
    exact ⟨_, s.beginOpen_begins, rfl⟩
  · rw [exec_t1xmit] at h
    cases h
    exact ⟨_, s.beginXmit_begins, rfl⟩

/-- What the beginning establishes and every answer keeps holds when a command of the engine stops. -/
theorem exec_t1_of {P : State → Prop} (inputs : ∀ s es, P s → P { s with inputs := es })
    (answer : ∀ s a, P s → P (s.answer a)) {i : Instr} (hi : i = .t1open ∨ i = .t1xmit) {s t : State}
    (h : exec i s = .next t) (begins : ∀ u, Begins s i u → P u) : P t := by
  obtain ⟨u, hu, rfl⟩ := exec_t1_begins hi h
  exact State.serve_keeps (fun s _ a rest _ hs => answer _ a (inputs s rest hs)) _ _ (begins u hu)

/-! ### Byte spaces and counts -/

theorem State.length_edcFrame (s : State) (w : Work) : (s.edcFrame w).length = 4 := rfl

theorem Prepared.inSize {s u : State} {w : Work} (h : Prepared s w u) (hs : s.InSize) : u.InSize := by
  cases h with
  | same => exact hs
  | toggled => exact hs.of_spaces rfl
  | cleared => exact hs.of_spaces rfl
  | nacked =>
    exact (hs.of_spaces (t := { s with sseq := s.sseq ^^^ 1#1 }) rfl).storeSlot _ (s.length_edcFrame w).ge
      ((s.length_edcFrame w).trans_le (by decide))

/-- No answer writes beyond a byte space (43_t1_protocol R196, R202). -/
theorem Moves.inSize {s t : State} {w : Work} (h : Moves s w t) (hrx : (frameFields w.rx).data.length ≤ lenMax)
    (hs : s.InSize) : t.InSize := by
  obtain ⟨u, hu, ht⟩ := h
  have hsize := hu.inSize hs
  cases ht with
  | sent _ hb =>
    rw [State.endXmit_eq]
    exact (hsize.storeData (hb ▸ hrx)).of_spaces rfl
  | opened => exact hsize.of_spaces rfl
  | aborts => exact hsize.of_spaces rfl
  | calls => exact hsize.of_spaces rfl

theorem State.length_xmitFrame (s : State) : s.xmitFrame.length = s.dlen.toNat + 4 := by
  simp [State.xmitFrame]

theorem Begins.inSize {s u : State} {i : Instr} (h : Begins s i u) (hs : s.InSize) : u.InSize := by
  have hstore : s.dlen.toNat ≤ lenMax → (s.storeSlot s.sseq s.xmitFrame).InSize := fun hlen => by
    have hcap : lenMax + 4 = lsCap := rfl
    have hframe := s.length_xmitFrame
    exact hs.storeSlot _ (by omega) (by omega)
  cases h with
  | openRefused => exact hs.of_spaces rfl
  | openFailed => exact hs.of_spaces rfl
  | openCalls => exact hs.of_spaces rfl
  | xmitRefused => exact hs.of_spaces rfl
  | xmitFailed hlen => exact (hstore hlen).of_spaces rfl
  | xmitCalls hlen => exact (hstore hlen).of_spaces rfl

theorem State.InSize.answer {s : State} (h : s.InSize) (a : Answer) : (s.answer a).InSize :=
  State.answer_keeps (P := State.InSize) (fun _ _ _ _ _ hrx hm hs => hm.inSize hrx hs) s a h

/-- Every command keeps the byte spaces in size. -/
theorem State.InSize.exec {i : Instr} {s t : State} (hi : i.format = .cmd) (h : s.InSize) (ht : exec i s = .next t) :
    t.InSize := by
  rcases format_cmd_iff.1 hi with hi | hi
  · rcases exec_transactional_cases hi ht with ⟨u, hu, rfl⟩ | ⟨e, -, rfl⟩
    · exact (h.bodyOf hu).of_spaces rfl
    · exact h.of_spaces rfl
  · exact exec_t1_of (P := State.InSize) (fun _ _ hs => hs.of_spaces rfl) (fun _ a hs => hs.answer a) hi ht
      fun _ hu => hu.inSize h

/-- Settles O55: each event has its rule. -/
theorem stepKeepsMemory : Obligations.StepKeepsMemory := by
  unfold Obligations.StepKeepsMemory
  intro s t hm hc ht
  exact step_keeps (P := State.InSize) (inputs := fun _ _ h => h.of_spaces rfl) (answer := fun _ a h => h.answer a)
    (reset := fun s _ => s.inSize_resetArch) (read := fun _ _ h => h.of_spaces rfl)
    (writeReg := fun _ n v h => h.writeReg n v) (writeByte := fun _ sp off b h => h.writeByte sp off b)
    (illegal := fun _ _ _ h => h.of_spaces rfl)
    (command := fun _ _ _ _ hi _ h hx => (h.of_spaces (t := State.start _ _) rfl).exec hi hx) ⟨hm, hc⟩ ht

/-! ### STATUS, ERR and SUBERR -/

/-- The command whose job it is. -/
def Job.command : Job → Instr
  | .xmit => .t1xmit
  | .opening _ _ => .t1open

/-- A started command `i` has ended without error, has ended with an error of its row, or waits for an answer (10_state
R24, 60_exceptions R233, R237). -/
def EndsOrWaits (i : Instr) (s : State) : Prop :=
  (s.status = statusDone ∧ s.err = 0#8 ∧ s.subErr = 0#8 ∧ s.work = none) ∨
  (s.status = statusErrf ∧ s.work = none ∧ ∃ e ∈ errorsOf i, s.err = e.code ∧
    (e = .unexpectedBlock → s.cfg.unknownReply = .fail) ∧
    (s.subErr = 0#8 ∨ (e = .initFailed ∧ s.subErr ∈ subErrorCodes))) ∨
  (s.status = statusBusy ∧ s.err = 0#8 ∧ s.subErr = 0#8 ∧ ∃ w, s.work = some w ∧ w.job.command = i)

/-- Every cause is an error of T1XMIT and a cause that InitFailed may name (60_exceptions R233, R237). -/
theorem Cause.listed {c : Config} {w : Work} {e : Err} (h : Cause c w e)
    (hrx : (frameFields w.rx).data.length ≤ lenMax) : e ∈ errorsOf .t1xmit ∧ e.code ∈ subErrorCodes := by
  cases h with
  | data hlen => exact absurd hrx (Nat.not_le.2 hlen)
  | retries | slot | block | line | size => exact ⟨by decide, by decide⟩

/-- A command of T1XMIT that ends with UnexpectedBlock runs under the policy `fail` (43_t1_protocol R199). -/
theorem Cause.fail_of_block {c : Config} {w : Work} {e : Err} (h : Cause c w e) (hj : w.job = .xmit)
    (he : e = .unexpectedBlock) : c.unknownReply = .fail := by
  cases h with
  | block hpolicy => exact hpolicy hj
  | retries | slot | data | line | size => cases he

/-- The registers that an arm prepares nothing of. -/
theorem Prepared.errors {s u : State} {w : Work} (h : Prepared s w u) :
    u.cfg = s.cfg ∧ u.err = s.err ∧ u.subErr = s.subErr := by
  cases h with
  | same | toggled | cleared => exact ⟨rfl, rfl, rfl⟩
  | nacked => simp

theorem Moves.endsOrWaits {s t : State} {w : Work} (h : Moves s w t)
    (hrx : (frameFields w.rx).data.length ≤ lenMax) (herr : s.err = 0#8) (hsub : s.subErr = 0#8) :
    EndsOrWaits w.job.command t := by
  obtain ⟨u, hu, ht⟩ := h
  obtain ⟨-, he, hs⟩ := hu.errors
  rw [herr] at he
  rw [hsub] at hs
  cases ht with
  | sent _ _ =>
    rw [State.endXmit_eq]
    exact .inl ⟨rfl, he, hs, rfl⟩
  | opened => exact .inl ⟨rfl, he, hs, rfl⟩
  | aborts ha =>
    refine .inr (.inl ⟨rfl, rfl, ?_⟩)
    cases ha with
    | xmit hj hc =>
      rw [hj]
      exact ⟨_, (hc.listed hrx).1, rfl, hc.fail_of_block hj, .inl rfl⟩
    | opening hj hc =>
      rw [hj]
      exact ⟨.initFailed, (by decide : Err.initFailed ∈ errorsOf .t1open), rfl, nofun, .inr ⟨rfl, (hc.listed hrx).2⟩⟩
  | calls hc =>
    refine .inr (.inr ⟨rfl, he, hs, _, rfl, ?_⟩)
    cases hc with
    | again => rfl
    | attempt hj => rw [hj]; rfl
    | ifs hj => rw [hj]; rfl

/-- The two other forms do not wait. -/
theorem EndsOrWaits.of_waiting {i : Instr} {s : State} {w : Work} (h : EndsOrWaits i s) (hw : s.work = some w) :
    s.err = 0#8 ∧ s.subErr = 0#8 ∧ w.job.command = i := by
  rcases h with ⟨-, -, -, hn⟩ | ⟨-, hn, -⟩ | ⟨-, he, hs, w', hw', hj⟩
  · rw [hw] at hn; cases hn
  · rw [hw] at hn; cases hn
  · rw [hw] at hw'
    cases hw'
    exact ⟨he, hs, hj⟩

theorem EndsOrWaits.answer {i : Instr} (s : State) (a : Answer) (h : EndsOrWaits i s) :
    EndsOrWaits i (s.answer a) := by
  refine State.answer_keeps (P := EndsOrWaits i) (fun s t w rx hw hrx hm hs => ?_) s a h
  obtain ⟨herr, hsub, rfl⟩ := hs.of_waiting hw
  exact hm.endsOrWaits hrx herr hsub

theorem Begins.endsOrWaits {s u : State} {i : Instr} (h : Begins s i u) (herr : s.err = 0#8) (hsub : s.subErr = 0#8)
    (hw : s.work = none) : EndsOrWaits i u := by
  cases h with
  | openRefused => exact .inr (.inl ⟨rfl, hw, .notImplemented, by decide, rfl, nofun, .inl rfl⟩)
  | openFailed hcause =>
    refine .inr (.inl ⟨rfl, rfl, .initFailed, by decide, rfl, nofun, ?_⟩)
    rcases hcause with rfl | rfl
    · exact .inl rfl
    · exact .inr ⟨rfl, (by decide : Err.tooManyRetries.code ∈ subErrorCodes)⟩
  | openCalls => exact .inr (.inr ⟨rfl, herr, hsub, _, rfl, rfl⟩)
  | xmitRefused he =>
    refine .inr (.inl ⟨rfl, hw, _, ?_, rfl, ?_, .inl rfl⟩) <;> rcases he with rfl | rfl <;> simp [errorsOf]
  | xmitFailed =>
    exact .inr (.inl ⟨rfl, rfl, .tooManyRetries, by decide, rfl, nofun, .inl rfl⟩)
  | xmitCalls => exact .inr (.inr ⟨rfl, by simpa using herr, by simpa using hsub, _, rfl, rfl⟩)

/-- Only the engine raises UnexpectedBlock (60_exceptions R233). -/
theorem unexpectedBlock_notMem {i : Instr} (hi : i ∈ transactional) : Err.unexpectedBlock ∉ errorsOf i :=
  (by decide : ∀ i ∈ transactional, Err.unexpectedBlock ∉ errorsOf i) i hi

/-- A body that is no reset leaves the error registers and the working storage alone; SRST clears them. -/
theorem errors_of_bodyOf {i : Instr} {s t : State} (h : bodyOf i s = .ok t) (herr : s.err = 0#8)
    (hsub : s.subErr = 0#8) (hw : s.work = none) : t.err = 0#8 ∧ t.subErr = 0#8 ∧ t.work = none := by
  by_cases hi : i = .srst
  · subst hi
    cases h
    exact ⟨rfl, rfl, rfl⟩
  · rw [withResults_of_bodyOf hi h]
    exact ⟨herr, hsub, hw⟩

theorem endsOrWaits_of_exec {i : Instr} {s t : State} (hi : i.format = .cmd) (herr : s.err = 0#8)
    (hsub : s.subErr = 0#8) (hw : s.work = none) (h : exec i s = .next t) : EndsOrWaits i t := by
  rcases format_cmd_iff.1 hi with hi | hi
  · rcases exec_transactional_cases hi h with ⟨u, hu, rfl⟩ | ⟨e, he, rfl⟩
    · obtain ⟨he, hs, hn⟩ := errors_of_bodyOf hu herr hsub hw
      exact .inl ⟨rfl, he, hs, hn⟩
    · exact .inr (.inl ⟨rfl, hw, e, he, rfl, fun hb => absurd (hb ▸ he) (unexpectedBlock_notMem hi), .inl rfl⟩)
  · exact exec_t1_of (P := EndsOrWaits i) (fun _ _ hs => hs) (fun _ a hs => hs.answer _ a) hi h
      fun _ hu => hu.endsOrWaits herr hsub hw

/-- No command of T1OPEN or T1XMIT changes the parameters. -/
theorem cfg_of_exec {i : Instr} (hi : i ≠ .srst) {s t : State} (h : exec i s = .next t) : t.cfg = s.cfg := by
  by_cases ha : i ∈ changesArena
  · have htrans : i ∈ transactional := (by decide : ∀ i ∈ changesArena, i ∈ transactional) i ha
    rcases exec_transactional_cases htrans h with ⟨u, hu, rfl⟩ | ⟨e, -, rfl⟩
    · rw [withResults_of_bodyOf hi hu]
      rfl
    · rfl
  · exact congrArg Prod.fst (arena_of_exec ha h)

/-- Settles O46: the three ways a command goes, and only T1OPEN and T1XMIT can wait. -/
theorem commandsEndOrWait : Obligations.CommandsEndOrWait := by
  unfold Obligations.CommandsEndOrWait
  intro i s t hi _ herr hsub hw h
  rcases endsOrWaits_of_exec hi herr hsub hw h with hdone | ⟨hstatus, hwork, e, he, hcode, hpolicy, hcause⟩ |
    ⟨hstatus, he, hs, w, hwork, hj⟩
  · exact .inl hdone
  · refine .inr (.inl ⟨hstatus, hwork, e, he, hcode, fun hb => ?_, hcause⟩)
    have hne : i ≠ .srst := fun hr => by rw [hr] at he; cases he
    rw [← cfg_of_exec hne h]
    exact hpolicy hb
  · refine .inr (.inr ⟨?_, hstatus, he, hs, by rw [hwork]; rfl⟩)
    rw [← hj]
    cases w.job with
    | xmit => exact .inr rfl
    | opening => exact .inl rfl

/-! ### The invariant of STATUS -/

theorem Err.code_mem_errorCodes (e : Err) : e.code ∈ errorCodes := by cases e <;> decide

/-- What a command comes to meets the invariant of STATUS. -/
theorem EndsOrWaits.statusInv {i : Instr} {s : State} (h : EndsOrWaits i s) : s.StatusInv := by
  rcases h with ⟨hstatus, he, hs, hw⟩ | ⟨hstatus, hw, e, -, he, -, hs⟩ | ⟨hstatus, he, hs, w, hw, -⟩
  · exact ⟨by simp [hstatus], by simp [hstatus, he, statusDone_ne_errf], .inl he, .inl hs,
      by simp [hstatus, hw, statusBusy_ne_done.symm]⟩
  · refine ⟨by simp [hstatus], by simp [hstatus, he, e.code_ne_zero], .inr (he ▸ e.code_mem_errorCodes), ?_,
      by simp [hstatus, hw, statusBusy_ne_errf.symm]⟩
    exact hs.imp_right fun ⟨hi, hmem⟩ => ⟨hi ▸ he, hmem⟩
  · exact ⟨by simp [hstatus], by simp [hstatus, he, statusBusy_ne_errf], .inl he, .inl hs, by simp [hstatus, hw]⟩

/-- A waiting command of a state that meets the invariant of STATUS. -/
theorem State.StatusInv.endsOrWaits {s : State} {w : Work} (h : s.StatusInv) (hw : s.work = some w) :
    EndsOrWaits w.job.command s := by
  have hstatus : s.status = statusBusy := h.busy.2 (by rw [hw]; rfl)
  have herr : s.err = 0#8 := by
    by_contra hne
    exact statusBusy_ne_errf (hstatus.symm.trans (h.errf.2 hne))
  refine .inr (.inr ⟨hstatus, herr, ?_, w, hw, rfl⟩)
  rcases h.subErr with hs | ⟨hcode, -⟩
  · exact hs
  · rw [herr] at hcode
    exact absurd hcode.symm (Err.code_ne_zero _)

/-- With BUSY clear no command waits. -/
theorem State.StatusInv.work_of_idle {s : State} (h : s.StatusInv) (hidle : s.busy = false) : s.work = none := by
  cases hw : s.work with
  | none => rfl
  | some w =>
    have hstatus : s.status = statusBusy := h.busy.2 (by rw [hw]; rfl)
    rw [State.busy, hstatus] at hidle
    exact absurd hidle (by decide)

theorem State.StatusInv.answer {s : State} (h : s.StatusInv) (a : Answer) : (s.answer a).StatusInv :=
  State.answer_keeps (P := State.StatusInv) (fun _ _ w rx hw hrx hm hs => by
    obtain ⟨herr, hsub, -⟩ := (hs.endsOrWaits hw).of_waiting hw
    exact (hm.endsOrWaits hrx herr hsub).statusInv) s a h

theorem State.statusInv_resetWith (c : Config) : (State.resetWith c).StatusInv :=
  ⟨.inl rfl, (by decide : 0#32 = statusErrf ↔ 0#8 ≠ 0#8), .inl rfl, .inl rfl,
    (by decide : 0#32 = statusBusy ↔ (none : Option Work).isSome)⟩

theorem State.statusInv_resetArch (s : State) : s.resetArch.StatusInv :=
  (State.statusInv_resetWith s.cfg).congr rfl rfl rfl rfl

/-- No register that the HOST may write is one of the error registers. -/
theorem State.statusInv_writeReg {s : State} (h : s.StatusInv) (n : Nat) (v : Word) :
    (s.writeReg n v).StatusInv := by
  unfold State.writeReg
  split
  case h_5 | h_7 =>
    split
    · exact h
    · exact h.congr rfl rfl rfl rfl
  all_goals exact h.congr rfl rfl rfl rfl

theorem State.statusInv_writeByte {s : State} (h : s.StatusInv) (sp : Space) (off : Nat) (b : Byte) :
    (s.writeByte sp off b).StatusInv := by
  rw [State.writeByte_frame]
  exact h.congr rfl rfl rfl rfl

/-- An illegal code ends at once (44_system R224). -/
theorem State.statusInv_illegal {s : State} (h : s.StatusInv) (hidle : s.busy = false) (c : BitVec 8) :
    ((s.start c).raise .illegalCommand).StatusInv :=
  ⟨.inr (.inr (.inr rfl)), by simp [Err.code_ne_zero], .inr (Err.code_mem_errorCodes .illegalCommand), .inl rfl,
    by simp [h.work_of_idle hidle, statusBusy_ne_errf.symm]⟩

theorem statusInv_of_command {i : Instr} {s t : State} {c : BitVec 8} (hi : i.format = .cmd) (hidle : s.busy = false)
    (h : s.StatusInv) (hx : exec i (s.start c) = .next t) : t.StatusInv :=
  (endsOrWaits_of_exec (s := s.start c) hi rfl rfl (h.work_of_idle hidle) hx).statusInv

/-- Settles O56: each event has its rule. -/
theorem stepKeepsStatus : Obligations.StepKeepsStatus := by
  unfold Obligations.StepKeepsStatus
  intro s t h ht
  exact step_keeps (P := State.StatusInv) (inputs := fun _ _ h => h.congr rfl rfl rfl rfl)
    (answer := fun _ a h => h.answer a) (reset := fun s _ => s.statusInv_resetArch)
    (read := fun _ _ h => h.congr rfl rfl rfl rfl) (writeReg := fun _ n v h => State.statusInv_writeReg h n v)
    (writeByte := fun _ sp off b h => State.statusInv_writeByte h sp off b)
    (illegal := fun _ c hidle h => State.statusInv_illegal h hidle c)
    (command := fun _ _ _ _ hi hidle h hx => statusInv_of_command hi hidle h hx) h ht

end Sys2Proof.Machine
end

section
/-! SUPPORT. The invariant of the protocol engine (10_state R29, R46, 43_t1_protocol R202): every frame it builds or
keeps is good, and what the hardware reset leaves (10_state R47). -/

namespace Sys2Proof.Machine

/-! ### The frames of the engine -/

/-- A frame that the factory builds is good (30_encoding R102, R103). -/
theorem goodFrame_build (src dst : BitVec 3) (pcb : Byte) {data : List Byte} (h : data.length ≤ lenMax) :
    GoodFrame (frameHead src dst pcb data ++ [lrc (frameHead src dst pcb data)]) := by
  rw [GoodFrame, t1Parse_frame src dst pcb h]
  rfl

theorem blockType_pcbI_ne : ∀ ns : BitVec 1, blockType (pcbI ns) ≠ .S := by decide

theorem blockType_pcbR_ne : ∀ nr : BitVec 1, blockType (pcbR nr 1#4) ≠ .S := by decide

theorem State.goodIorR_edcFrame (s : State) (w : Work) : GoodIorR (s.edcFrame w) :=
  ⟨goodFrame_build _ _ _ (Nat.zero_le _), blockType_pcbR_ne s.rseq⟩

theorem State.goodIorR_xmitFrame {s : State} (h : s.dlen.toNat ≤ lenMax) : GoodIorR s.xmitFrame :=
  ⟨goodFrame_build _ _ _ (by simpa using h), blockType_pcbI_ne s.sseq⟩

/-! ### The slots -/

/-- Each last-sent slot is empty or holds one complete I-block or R-block (10_state R29). -/
def State.SlotsGood (s : State) : Prop := ∀ p, s.slotLen p = 0#16 ∨ GoodIorR (s.slot p)

theorem State.SlotsGood.congr {s t : State} (h : s.SlotsGood) (hlen : t.slotLen = s.slotLen) (hslot : t.slot = s.slot) :
    t.SlotsGood := fun p => by rw [hlen, hslot]; exact h p

/-- A good frame stored in a slot is what that slot holds; the other keeps what it held. -/
theorem State.SlotsGood.storeSlot {s : State} (h : s.SlotsGood) (hm : s.MemoryInv) (p : BitVec 1) {raw : List Byte}
    (hraw : GoodIorR raw) (hlen : raw.length < 2 ^ 16) : (s.storeSlot p raw).SlotsGood := by
  intro q
  by_cases hq : q = p
  · subst hq
    rw [State.slot_storeSlot hm.ls0_wf hm.ls1_wf q hlen]
    exact .inr hraw
  · rw [State.slot_storeSlot_other s hq, State.slotLen_storeSlot_other s hq]
    exact h q

theorem State.ProtocolInv.slotsGood {s : State} (h : s.ProtocolInv) : s.SlotsGood := fun p => by
  rcases (by decide : ∀ p : BitVec 1, p = 0#1 ∨ p = 1#1) p with rfl | rfl
  · exact h.slot0
  · exact h.slot1

/-! ### The working storage -/

/-- What 10_state R46 and 43_t1_protocol R202 say of the working storage of a command that waits. -/
structure Work.Good (c : Config) (w : Work) : Prop where
  frame : GoodFrame w.out
  pos : 1 ≤ w.retries
  le : w.retries ≤ c.retryBudget
  xmit : w.job = .xmit → GoodIorR w.out ∨ (frameFields w.out).pcb = pcbS c.scode.wtxResponse
  opening : ∀ a ph, w.job = .opening a ph → 1 ≤ a ∧ a ≤ c.openAttempts

/-- The invariant in four parts. -/
theorem State.protocolInv_iff {s : State} : s.ProtocolInv ↔
    s.cfg.scode.WellFormed ∧ s.InSize ∧ s.SlotsGood ∧ ∀ w ∈ s.work, w.Good s.cfg := by
  constructor
  · intro h
    refine ⟨h.scode, ⟨h.memory, h.counts⟩, h.slotsGood, fun w hw => ?_⟩
    obtain ⟨hframe, hpos, hle⟩ := h.waiting w hw
    exact ⟨hframe, hpos, hle, h.xmit w hw, h.opening w hw⟩
  · rintro ⟨hscode, ⟨hm, hc⟩, hslots, hwork⟩
    exact ⟨hscode, hm, hc, hslots 0#1, hslots 1#1, fun w hw => ⟨(hwork w hw).frame, (hwork w hw).pos, (hwork w hw).le⟩,
      fun w hw => (hwork w hw).xmit, fun w hw => (hwork w hw).opening⟩

theorem State.ProtocolInv.good {s : State} (h : s.ProtocolInv) {w : Work} (hw : s.work = some w) : w.Good s.cfg :=
  (State.protocolInv_iff.1 h).2.2.2 w hw

/-- An update of none of the fields that the invariant names keeps it. -/
theorem State.ProtocolInv.congr {s t : State} (h : s.ProtocolInv) (hs : t.spaces = s.spaces)
    (hw : t.work = s.work) : t.ProtocolInv := by
  obtain ⟨hscode, hsize, hslots, hwork⟩ := State.protocolInv_iff.1 h
  have hsize' := hsize.of_spaces hs
  simp only [State.spaces, Prod.mk.injEq] at hs
  obtain ⟨hc, ⟨-, -, -, h0, h1⟩, -, -, hl0, hl1⟩ := hs
  refine State.protocolInv_iff.2 ⟨hc ▸ hscode, hsize', hslots.congr ?_ ?_, by rwa [hc, hw]⟩
  · funext p; simp only [State.slotLen, hl0, hl1]
  · funext p; simp only [State.slot, h0, h1, hl0, hl1]

/-- So does the end of a command, which leaves no working storage. -/
theorem State.ProtocolInv.ended {s t : State} (hscode : s.cfg.scode.WellFormed)
    (hslots : s.SlotsGood) (hc : t.cfg = s.cfg) (hsize' : t.InSize) (hlen : t.slotLen = s.slotLen)
    (hslot : t.slot = s.slot) (hw : t.work = none) : t.ProtocolInv :=
  State.protocolInv_iff.2 ⟨hc ▸ hscode, hsize', hslots.congr hlen hslot, by simp [hw]⟩

/-! ### Answers -/

theorem Prepared.cfg_eq {s u : State} {w : Work} (h : Prepared s w u) : u.cfg = s.cfg := h.errors.1

theorem Prepared.slotsGood {s u : State} {w : Work} (h : Prepared s w u) (hm : s.MemoryInv) (hs : s.SlotsGood) :
    u.SlotsGood := by
  cases h with
  | same => exact hs
  | toggled => exact hs.congr rfl rfl
  | cleared => exact hs.congr rfl rfl
  | nacked =>
    have hs' : State.SlotsGood { s with sseq := s.sseq ^^^ 1#1 } := hs.congr rfl rfl
    exact hs'.storeSlot (hm.congr rfl rfl rfl rfl rfl rfl) _ (s.goodIorR_edcFrame w)
      (by rw [s.length_edcFrame w]; omega)

/-- What is sent again is good, and of a kind that T1XMIT sends (43_t1_protocol R194 to R199, R202). -/
theorem Resent.good {s : State} {w : Work} {out : List Byte} (h : Resent s w out) (hs : s.SlotsGood)
    (hw : w.Good s.cfg) : GoodFrame out ∧
      (w.job = .xmit → GoodIorR out ∨ (frameFields out).pcb = pcbS s.cfg.scode.wtxResponse) := by
  cases h with
  | @slot p hne =>
    have hgood := (hs p).resolve_left hne
    exact ⟨hgood.1, fun _ => .inl hgood⟩
  | wtx hlen => exact ⟨goodFrame_build _ _ _ hlen, fun _ => .inr rfl⟩
  | nack => exact ⟨(s.goodIorR_edcFrame w).1, fun _ => .inl (s.goodIorR_edcFrame w)⟩
  | same => exact ⟨hw.frame, hw.xmit⟩

theorem State.goodFrame_resynchFrame (s : State) : GoodFrame s.resynchFrame := goodFrame_build _ _ _ (Nat.zero_le _)

theorem State.goodFrame_ifsFrame (s : State) : GoodFrame s.ifsFrame := goodFrame_build _ _ _ (show 1 ≤ 254 by decide)

/-- The next call has good working storage. -/
theorem Calls.good {s : State} {w : Work} {j : Job} {r : Nat} {out : List Byte} (h : Calls s w j r out)
    (hs : s.SlotsGood) (hw : w.Good s.cfg) : Work.Good s.cfg ⟨j, r, out, []⟩ := by
  cases h with
  | again hr hout =>
    obtain ⟨hframe, hkind⟩ := hout.good hs hw
    have hle := hw.le
    exact ⟨hframe, Nat.one_le_iff_ne_zero.2 hr, by simp only; omega, hkind, hw.opening⟩
  | attempt hj hk hb =>
    exact ⟨s.goodFrame_resynchFrame, Nat.one_le_iff_ne_zero.2 hb, le_rfl, nofun, fun a ph heq => by
      cases heq; omega⟩
  | ifs hj hb =>
    exact ⟨s.goodFrame_ifsFrame, Nat.one_le_iff_ne_zero.2 hb, le_rfl, nofun, fun a ph heq => by
      cases heq; exact hw.opening _ _ hj⟩

theorem Moves.protocolInv {s t : State} {w : Work} {rx : List Byte} (hm : Moves s { w with rx := rx } t)
    (hrx : (frameFields rx).data.length ≤ lenMax) (hw : s.work = some w) (h : s.ProtocolInv) : t.ProtocolInv := by
  have hgood := h.good hw
  obtain ⟨hscode, hsize, hslots, -⟩ := State.protocolInv_iff.1 h
  have ht := hm.inSize hrx hsize
  obtain ⟨u, hu, hlead⟩ := hm
  have hc := hu.cfg_eq
  have hus := hu.slotsGood hsize.1 hslots
  have hscode' : u.cfg.scode.WellFormed := hc ▸ hscode
  cases hlead with
  | sent =>
    rw [State.endXmit_eq] at ht ⊢
    exact .ended hscode' hus rfl ht rfl rfl rfl
  | opened => exact .ended hscode' hus rfl ht rfl rfl rfl
  | aborts => exact .ended hscode' hus rfl ht rfl rfl rfl
  | calls hcall =>
    refine State.protocolInv_iff.2 ⟨hscode', ht, hus.congr rfl rfl, ?_⟩
    rintro w' ⟨⟩
    exact hcall.good hus (hc ▸ ⟨hgood.frame, hgood.pos, hgood.le, hgood.xmit, hgood.opening⟩)

theorem State.ProtocolInv.answer {s : State} (h : s.ProtocolInv) (a : Answer) : (s.answer a).ProtocolInv :=
  State.answer_keeps (P := State.ProtocolInv) (fun _ _ _ _ hw hrx hm hs => hm.protocolInv hrx hw hs) s a h

/-! ### Commands and the other events -/

theorem Begins.protocolInv {s u : State} {i : Instr} (hb : Begins s i u) (h : s.ProtocolInv) : u.ProtocolInv := by
  obtain ⟨hscode, hsize, hslots, -⟩ := State.protocolInv_iff.1 h
  have hu := hb.inSize hsize
  have hstore : s.dlen.toNat ≤ lenMax → (s.storeSlot s.sseq s.xmitFrame).SlotsGood := fun hlen => by
    have hmax : lenMax = 254 := rfl
    exact hslots.storeSlot hsize.1 _ (State.goodIorR_xmitFrame hlen) (by rw [s.length_xmitFrame]; omega)
  cases hb with
  | openRefused => exact h.congr rfl rfl
  | xmitRefused => exact h.congr rfl rfl
  | openFailed => exact .ended hscode hslots rfl hu rfl rfl rfl
  | openCalls ho hb =>
    refine State.protocolInv_iff.2 ⟨hscode, hu, hslots.congr rfl rfl, ?_⟩
    rintro w ⟨⟩
    exact ⟨s.goodFrame_resynchFrame, Nat.one_le_iff_ne_zero.2 hb, le_rfl, nofun, fun a ph heq => by
      cases heq; exact ⟨le_rfl, ho⟩⟩
  | xmitFailed hlen =>
    exact State.protocolInv_iff.2 ⟨by simpa using hscode, hu, (hstore hlen).congr rfl rfl, nofun⟩
  | xmitCalls hlen hb =>
    refine State.protocolInv_iff.2 ⟨by simpa using hscode, hu, (hstore hlen).congr rfl rfl, ?_⟩
    rintro w ⟨⟩
    have hgood := State.goodIorR_xmitFrame hlen
    exact ⟨hgood.1, Nat.one_le_iff_ne_zero.2 hb, by simp, fun _ => .inl hgood, nofun⟩

theorem State.protocolInv_resetWith {c : Config} (h : c.scode.WellFormed) : (State.resetWith c).ProtocolInv :=
  State.protocolInv_iff.2 ⟨h, State.inSize_resetWith c, fun _ => .inl (ite_self _), nofun⟩

theorem State.ProtocolInv.resetArch {s : State} (h : s.ProtocolInv) : s.resetArch.ProtocolInv :=
  (State.protocolInv_resetWith h.scode).congr rfl rfl

/-- A transactional command that is no reset leaves parameters, slots and working storage alone. -/
theorem State.ProtocolInv.bodyOf {i : Instr} {s t : State} (h : s.ProtocolInv) (ht : bodyOf i s = .ok t) :
    t.ProtocolInv := by
  by_cases hi : i = .srst
  · subst hi
    cases ht
    exact h.resetArch.congr rfl rfl
  · obtain ⟨hscode, hsize, hslots, hwork⟩ := State.protocolInv_iff.1 h
    have hsize' := hsize.bodyOf ht
    rw [withResults_of_bodyOf hi ht] at hsize' ⊢
    exact State.protocolInv_iff.2 ⟨hscode, hsize', hslots.congr rfl rfl, hwork⟩

/-- Every command keeps the invariant. -/
theorem State.ProtocolInv.exec {i : Instr} {s t : State} (hi : i.format = .cmd) (h : s.ProtocolInv)
    (ht : exec i s = .next t) : t.ProtocolInv := by
  rcases format_cmd_iff.1 hi with hi | hi
  · rcases exec_transactional_cases hi ht with ⟨u, hu, rfl⟩ | ⟨e, -, rfl⟩
    · exact (h.bodyOf hu).congr rfl rfl
    · exact h.congr rfl rfl
  · exact exec_t1_of (P := State.ProtocolInv) (fun _ _ hs => hs.congr rfl rfl) (fun _ a hs => hs.answer a) hi ht
      fun _ hu => hu.protocolInv h

theorem State.ProtocolInv.writeReg {s : State} (h : s.ProtocolInv) (n : Nat) (v : Word) :
    (s.writeReg n v).ProtocolInv := by
  obtain ⟨hscode, hsize, hslots, hwork⟩ := State.protocolInv_iff.1 h
  have hsize' := hsize.writeReg n v
  unfold State.writeReg at hsize' ⊢
  split
  case h_5 | h_7 =>
    split
    · exact h
    · exact State.protocolInv_iff.2 ⟨hscode, by simpa [*] using hsize', hslots.congr rfl rfl, hwork⟩
  all_goals exact h.congr rfl rfl

theorem State.ProtocolInv.writeByte {s : State} (h : s.ProtocolInv) (sp : Space) (off : Nat) (b : Byte) :
    (s.writeByte sp off b).ProtocolInv := by
  obtain ⟨hscode, hsize, hslots, hwork⟩ := State.protocolInv_iff.1 h
  have hsize' := hsize.writeByte sp off b
  rw [State.writeByte_frame] at hsize' ⊢
  exact State.protocolInv_iff.2 ⟨hscode, hsize', hslots.congr rfl rfl, hwork⟩

/-- Settles O57: each event has its rule. -/
theorem stepKeepsProtocol : Obligations.StepKeepsProtocol := by
  unfold Obligations.StepKeepsProtocol
  intro s t _ h ht
  exact step_keeps (P := State.ProtocolInv) (inputs := fun _ _ h => h.congr rfl rfl) (answer := fun _ a h => h.answer a)
    (reset := fun _ h => h.resetArch) (read := fun _ _ h => h.congr rfl rfl)
    (writeReg := fun _ n v h => h.writeReg n v) (writeByte := fun _ sp off b h => h.writeByte sp off b)
    (illegal := fun _ _ _ h => h.congr rfl rfl)
    (command := fun _ _ _ _ hi _ h hx => (h.congr (t := State.start _ _) rfl rfl).exec hi hx) h ht

/-! ### The hardware reset -/

theorem Config.standard_wellFormed : Config.standard.WellFormed := (Config.wf_iff _).1 (by decide)

theorem State.inv_resetWith {c : Config} (h : c.WellFormed) : (State.resetWith c).Inv where
  status := State.statusInv_resetWith c
  protocol := State.protocolInv_resetWith h.scode
  arena := .of_nil h rfl rfl rfl

/-- Settles O54: the reset state for any admitted parameters, and so for the standard ones. -/
theorem resetMeetsInvariants : Obligations.ResetMeetsInvariants := by
  unfold Obligations.ResetMeetsInvariants
  exact ⟨State.inv_resetWith Config.standard_wellFormed, fun _ h => State.inv_resetWith h⟩

end Sys2Proof.Machine
end

section
/-! SUPPORT. What T1OPEN and T1XMIT leave alone (43_t1_protocol R204, 10_state R25, R30), and how many exchange calls
they make (R205). -/

namespace Sys2Proof.Machine

/-! ### The session -/

/-- `s` with the session registers, slots, XCNT, error registers, working storage and events of `t`. -/
def State.withSession (s t : State) : State :=
  { s with
    sseq := t.sseq, rseq := t.rseq, ls0 := t.ls0, ls1 := t.ls1, ls0len := t.ls0len, ls1len := t.ls1len
    xcnt := t.xcnt, err := t.err, subErr := t.subErr, status := t.status, work := t.work, inputs := t.inputs }

theorem State.withSession_trans {s t u : State} (ht : t = s.withSession t) (hu : u = t.withSession u) :
    u = s.withSession u := by
  rw [ht] at hu
  exact hu

theorem State.withSession_storeSlot (s : State) (p : BitVec 1) (raw : List Byte) :
    s.storeSlot p raw = s.withSession (s.storeSlot p raw) := by
  unfold State.storeSlot
  split <;> rfl

theorem Prepared.withSession {s u : State} {w : Work} (h : Prepared s w u) : u = s.withSession u := by
  cases h with
  | same | toggled | cleared => rfl
  | nacked =>
    exact State.withSession_trans (t := { s with sseq := s.sseq ^^^ 1#1 }) rfl (State.withSession_storeSlot _ _ _)

/-- An answer ends the command without error, or writes the session at most (43_t1_protocol R204). -/
theorem Moves.withSession {s t : State} {w : Work} (h : Moves s w t) :
    (t.work = none ∧ t.status = statusDone) ∨ t = s.withSession t := by
  obtain ⟨u, hu, ht⟩ := h
  have hu := hu.withSession
  cases ht with
  | sent =>
    rw [State.endXmit_eq]
    exact .inl ⟨rfl, rfl⟩
  | opened => exact .inl ⟨rfl, rfl⟩
  | aborts => exact .inr (State.withSession_trans hu rfl)
  | calls => exact .inr (State.withSession_trans hu rfl)

theorem Begins.withSession {s u : State} {i : Instr} (h : Begins s i u) : u = s.withSession u := by
  cases h with
  | openRefused | openFailed | openCalls | xmitRefused => rfl
  | xmitFailed | xmitCalls => exact State.withSession_trans (State.withSession_storeSlot _ _ _) rfl

/-- Settles O48: the beginning and each answer write the session at most, until the command has ended without error. -/
theorem protocolErrorsKeepResults : Obligations.ProtocolErrorsKeepResults := by
  unfold Obligations.ProtocolErrorsKeepResults
  intro i s t hi h hstatus
  have hend : (t.work = none ∧ t.status = statusDone) ∨ t = s.withSession t := by
    refine exec_t1_of (P := fun t => (t.work = none ∧ t.status = statusDone) ∨ t = s.withSession t)
      (fun t es ht => ht.imp_right fun ht => State.withSession_trans ht rfl) (fun t a ht => ?_) hi h
      fun u hu => .inr hu.withSession
    refine State.answer_keeps (P := fun t => (t.work = none ∧ t.status = statusDone) ∨ t = s.withSession t)
      (fun t u w rx hw _ hm ht => ?_) t a ht
    rcases ht with ⟨hn, -⟩ | ht
    · rw [hw] at hn; cases hn
    · exact hm.withSession.imp_right fun hu => State.withSession_trans ht hu
  exact hend.resolve_left fun ⟨_, hdone⟩ => hstatus hdone

/-! ### The registers of the HOST -/

/-- The registers that only the HOST writes, and the model's own `cfg` and `hostData` (10_state R21, R25, R30). -/
def State.hostPart (s : State) : (BitVec 8 × Word × Word × Word × Word) × (BitVec 1 × BitVec 3 × BitVec 3 × Word) ×
    Config × Word :=
  ((s.cmd, s.a0, s.a1, s.a2, s.a3), (s.edcMode, s.haddr, s.daddr, s.bwt), s.cfg, s.hostData)

/-- Neither writing the session nor writing results reaches them. -/
theorem State.hostPart_of_withSession {s t : State} (h : t = s.withSession t) : t.hostPart = s.hostPart := by
  rw [h]; rfl

theorem State.hostPart_of_withResults {s t : State} (h : t = s.withResults t) : t.hostPart = s.hostPart := by
  rw [h]; rfl

theorem Moves.hostPart {s t : State} {w : Work} (h : Moves s w t) : t.hostPart = s.hostPart := by
  obtain ⟨u, hu, ht⟩ := h
  rw [← State.hostPart_of_withSession hu.withSession]
  cases ht with
  | sent => rw [State.endXmit_eq]; rfl
  | opened | aborts | calls => rfl

theorem State.hostPart_reply (s : State) {i : Instr} (hi : i.format = .pcb) : (s.reply i).hostPart = s.hostPart := by
  cases hw : s.work with
  | none => rw [State.reply_idle hw]
  | some w => exact (State.reply_moves hw hi).hostPart

theorem State.hostPart_answer (s : State) (a : Answer) : (s.answer a).hostPart = s.hostPart :=
  State.answer_keeps (P := fun t => t.hostPart = s.hostPart) (fun _ _ _ _ _ _ hm ht => hm.hostPart.trans ht) s a rfl

theorem hostPart_of_exec {i : Instr} (hi : i ≠ .srst) {s t : State} (h : exec i s = .next t) :
    t.hostPart = s.hostPart := by
  cases hf : i.format with
  | pcb =>
    rw [exec_of_pcb hf] at h
    cases h
    exact s.hostPart_reply hf
  | cmd =>
    rcases format_cmd_iff.1 hf with ht | ht
    · rcases exec_transactional_cases ht h with ⟨u, hu, rfl⟩ | ⟨e, -, rfl⟩
      · exact State.hostPart_of_withResults (t := u) (withResults_of_bodyOf hi hu)
      · rfl
    · exact exec_t1_of (P := fun t => t.hostPart = s.hostPart) (fun _ _ h => h)
        (fun t a h => (t.hostPart_answer a).trans h) ht h
        fun _ hu => State.hostPart_of_withSession hu.withSession

/-- Settles O50: field by field. -/
theorem commandsKeepHostRegisters : Obligations.CommandsKeepHostRegisters := by
  unfold Obligations.CommandsKeepHostRegisters
  intro i s t hi h
  have hpart := hostPart_of_exec hi h
  simp only [State.hostPart, Prod.mk.injEq] at hpart
  obtain ⟨⟨hcmd, ha0, ha1, ha2, ha3⟩, ⟨hmode, hhaddr, hdaddr, hbwt⟩, hcfg, hdata⟩ := hpart
  exact ⟨hcmd, ha0, ha1, ha2, ha3, hmode, hhaddr, hdaddr, hbwt, hcfg, hdata⟩

/-! ### Exchange calls -/

/-- The exchange calls that can follow the one a command waits for, if it waits (43_t1_protocol R205). -/
def State.callsToCome (s : State) : Nat :=
  match s.work with
  | some w => w.exchangesLeft s.cfg - 1
  | none => 0

/-- From XCNT = `x` on, at most `n` calls were made or can still follow. -/
def CallsWithin (n : Nat) (x : Word) (s : State) : Prop :=
  ∃ k, k + s.callsToCome ≤ n ∧ s.xcnt = x + BitVec.ofNat 32 k

theorem callsToCome_callExchange (s : State) (j : Job) (r : Nat) (out : List Byte) :
    (s.callExchange j r out).callsToCome = max 1 r + j.exchangesAfter s.cfg - 1 := rfl

theorem Prepared.xcnt {s u : State} {w : Work} (h : Prepared s w u) : u.xcnt = s.xcnt := by
  cases h with
  | same | toggled | cleared => rfl
  | nacked => simp

/-- A call is counted when it is made; an end of the command counts nothing (43_t1_protocol R191, log entry 13). -/
theorem Moves.xcnt {s t : State} {w : Work} (h : Moves s w t) :
    (t.xcnt = s.xcnt ∧ t.work = none) ∨ (t.xcnt = s.xcnt + 1#32 ∧ t.work.isSome) := by
  obtain ⟨u, hu, ht⟩ := h
  rw [← hu.xcnt]
  cases ht with
  | sent =>
    rw [State.endXmit_eq]
    exact .inl ⟨rfl, rfl⟩
  | opened => exact .inl ⟨rfl, rfl⟩
  | aborts => exact .inl ⟨rfl, rfl⟩
  | calls => exact .inr ⟨rfl, rfl⟩

theorem exchangesLeft_pos (c : Config) (w : Work) : 1 ≤ w.exchangesLeft c := by
  unfold Work.exchangesLeft
  omega

theorem State.callsToCome_some {s : State} {w : Work} (h : s.work = some w) :
    s.callsToCome = w.exchangesLeft s.cfg - 1 := by
  simp only [State.callsToCome, h]

theorem State.callsToCome_none {s : State} (h : s.work = none) : s.callsToCome = 0 := by
  simp only [State.callsToCome, h]

theorem CallsWithin.answer {n : Nat} {x : Word} (s : State) (a : Answer) (h : CallsWithin n x s) :
    CallsWithin n x (s.answer a) := by
  cases hw : s.work with
  | none => rwa [State.answer_idle hw]
  | some w =>
    obtain ⟨k, hk, hx⟩ := h
    obtain ⟨rx, -, hm⟩ := State.answer_moves hw a
    have hends := State.answer_ends hw a
    rw [State.callsToCome_some hw] at hk
    rcases hm.xcnt with ⟨hsame, hnone⟩ | ⟨hnext, hsome⟩
    · refine ⟨k, ?_, hsame.trans hx⟩
      rw [State.callsToCome_none hnone]
      omega
    · obtain ⟨w', hw'⟩ := Option.isSome_iff_exists.1 hsome
      have hless : w'.exchangesLeft s.cfg ≤ w.exchangesLeft s.cfg - 1 := by
        rcases hends.ends with ⟨hn, -⟩ | ⟨v, hv, -, hle⟩
        · rw [hw'] at hn; cases hn
        · rw [hw'] at hv; cases hv; exact hle
      have hpos := exchangesLeft_pos s.cfg w'
      refine ⟨k + 1, ?_, by rw [hnext, hx, BitVec.ofNat_add, BitVec.add_assoc]⟩
      rw [State.callsToCome_some hw', hends.cfg]
      omega

/-- The first call is counted too (43_t1_protocol R205). -/
theorem Begins.callsWithin {s u : State} {i : Instr} (h : Begins s i u) (hw : s.work = none) :
    CallsWithin (exchangesOf s.cfg i) s.xcnt u := by
  have hnone : ∀ {v : State}, v.work = none → v.xcnt = s.xcnt → CallsWithin (exchangesOf s.cfg i) s.xcnt v :=
    fun hv hx => ⟨0, by rw [State.callsToCome_none hv]; omega, by rw [hx]; simp⟩
  cases h with
  | openRefused => exact hnone hw rfl
  | openFailed => exact hnone rfl rfl
  | xmitRefused => exact hnone hw rfl
  | xmitFailed => exact hnone rfl (by simp)
  | openCalls ho hb =>
    refine ⟨1, ?_, rfl⟩
    have hmul := Nat.succ_mul (s.cfg.openAttempts - 1) (2 * s.cfg.retryBudget)
    rw [Nat.succ_eq_add_one, Nat.sub_add_cancel ho] at hmul
    simp only [callsToCome_callExchange, Job.exchangesAfter, exchangesOf]
    omega
  | xmitCalls _ hb =>
    refine ⟨1, ?_, by simp⟩
    simp only [callsToCome_callExchange, Job.exchangesAfter, exchangesOf]
    omega

/-- No command of the engine makes more calls than its bound (43_t1_protocol R205). -/
theorem xcnt_of_exec {i : Instr} (hi : i = .t1open ∨ i = .t1xmit) {s t : State} (hw : s.work = none)
    (h : exec i s = .next t) : ∃ k ≤ exchangesOf s.cfg i, t.xcnt = s.xcnt + BitVec.ofNat 32 k := by
  have hwithin : CallsWithin (exchangesOf s.cfg i) s.xcnt t :=
    exec_t1_of (P := CallsWithin (exchangesOf s.cfg i) s.xcnt) (fun _ _ h => h) (fun s a h => h.answer s a) hi h
      fun _ hu => hu.callsWithin hw
  obtain ⟨k, hk, hx⟩ := hwithin
  exact ⟨k, by omega, hx⟩

end Sys2Proof.Machine
end

section
/-! SUPPORT. Frames and words as numbers (30_encoding R91 to R98, 42_t1_block_unit R170), and the block unit that builds
and parses frames (R172 to R175). -/

namespace Sys2Proof.Machine

/-! ### Words and octets as numbers -/

/-- The header word is the sum of its four octets at their places (42_t1_block_unit R170). -/
theorem headerWord_eq (n p l e : Byte) : headerWord n p l e =
    BitVec.ofNat 32 (n.toNat + p.toNat * 2 ^ 8 + l.toNat * 2 ^ 16 + e.toNat * 2 ^ 24) := by
  have hn := n.isLt
  have hp := p.isLt
  have hl := l.isLt
  refine BitVec.eq_of_toNat_eq ?_
  simp only [headerWord, BitVec.toNat_append, BitVec.toNat_ofNat]
  rw [← Nat.shiftLeft_add_eq_or_of_lt hl, ← Nat.shiftLeft_add_eq_or_of_lt hp, ← Nat.shiftLeft_add_eq_or_of_lt hn]
  have he := e.isLt
  simp only [Nat.shiftLeft_eq]
  omega

theorem Block.header_frameFields (raw : List Byte) : (frameFields raw).header = headerOf raw :=
  headerWord_eq _ _ _ _

/-- The word of addresses and type is the sum of its fields at their places (42_t1_block_unit R175). -/
theorem addressWord_eq : ∀ (src dst : BitVec 3) (type : BitVec 2),
    addressWord src dst type = BitVec.ofNat 32 (src.toNat + dst.toNat * 16 + type.toNat * 256) := by
  decide

theorem toNat_nadSrc (n : Byte) : (nadSrc n).toNat = n.toNat % 8 := by
  simp [nadSrc]

theorem toNat_nadDst (n : Byte) : (nadDst n).toNat = n.toNat / 16 % 8 := by
  simp [nadDst, Nat.shiftRight_eq_div_pow]

theorem toNat_addrSrc (w : Word) : (addrSrc w).toNat = w.toNat % 8 := by
  simp [addrSrc]

theorem toNat_addrDst (w : Word) : (addrDst w).toNat = w.toNat / 16 % 8 := by
  simp [addrDst, Nat.shiftRight_eq_div_pow]

/-- R1 of a received block, from its NAD and a type (30_encoding R92). -/
theorem addressWord_nad (n : Byte) (type : BitVec 2) : addressWord (nadSrc n) (nadDst n) type =
    BitVec.ofNat 32 (n.toNat % 8 + n.toNat / 16 % 8 * 16 + type.toNat * 256) := by
  rw [addressWord_eq, toNat_nadSrc, toNat_nadDst]

theorem nad_eq : ∀ src dst : BitVec 3, nad src dst = BitVec.ofNat 8 (dst.toNat * 16 + src.toNat) := by decide

theorem pcbI_eq : ∀ ns : BitVec 1, pcbI ns = BitVec.ofNat 8 (ns.toNat * 64) := by decide

theorem pcbR_eq : ∀ (nr : BitVec 1) (err : BitVec 4),
    pcbR nr err = BitVec.ofNat 8 (0x80 + nr.toNat * 16 + err.toNat) := by decide

theorem pcbR_edc_eq : ∀ nr : BitVec 1, pcbR nr 1#4 = BitVec.ofNat 8 (0x81 + nr.toNat * 16) := by decide

theorem pcbS_eq : ∀ code : BitVec 6, pcbS code = BitVec.ofNat 8 (0xC0 + code.toNat) := by decide

/-- The type field by the range of the PCB (30_encoding R95, 42_t1_block_unit R175). -/
theorem toNat_blockType_code : ∀ pcb : Byte, (blockType pcb).code.toNat =
    if pcb.toNat < 0x80 then 0 else if pcb.toNat < 0xC0 then 2 else 3 := by decide

/-- The frame that the factory builds, from numbers (30_encoding R102). -/
theorem frameOf_eq (src dst : BitVec 3) {p : Nat} {pcb : Byte} (hp : pcb = BitVec.ofNat 8 p) (data : List Byte) :
    frameOf src.toNat dst.toNat p data = frameHead src dst pcb data ++ [lrc (frameHead src dst pcb data)] := by
  rw [frameOf, xorAll_eq_lrc, ← nad_eq, ← hp]
  rfl

theorem length_frame (src dst : BitVec 3) (pcb : Byte) (data : List Byte) :
    (frameHead src dst pcb data ++ [lrc (frameHead src dst pcb data)]).length = data.length + 4 := by
  simp

theorem stored_writeRange {m : Memory} (hm : m.wf) (off : Nat) (bs : List Byte) :
    Stored m (m.writeRange off bs) off bs := fun a => Memory.read_writeRange hm off a bs

/-! ### T1MKI, T1MKR, T1MKS -/

theorem exec_t1mki (s : State) : exec .t1mki s = .next (s.complete (t1mkiBody s)) := rfl

theorem exec_t1mkr (s : State) : exec .t1mkr s = .next (s.complete (t1mkrBody s)) := rfl

theorem exec_t1mks (s : State) : exec .t1mks s = .next (s.complete (t1mksBody s)) := rfl

/-- Where the tests of mode and size have passed, the frame is built in FB (42_t1_block_unit R172 to R174). -/
theorem State.complete_build {s : State} (hm : s.MemoryInv) (hmode : s.edcMode ≠ 1#1) {p n : Nat} {pcb : Byte}
    {data : List Byte} (hlen : data.length = n) (hmax : n ≤ lenMax) (hp : pcb = BitVec.ofNat 8 p) :
    let raw := frameOf (s.a0.toNat % 8) (s.a0.toNat / 16 % 8) p data
    ∃ t, (Host.Outcome.next (s.complete (s.build pcb data)) : Host.Outcome State Fault Refusal) = .next t ∧
      Stored s.fb t.fb 0 raw ∧
      t = { s with fb := t.fb, flen := BitVec.ofNat 16 (n + 4), r0 := headerOf raw, status := 2#32 } := by
  subst hlen
  rw [← toNat_addrSrc, ← toNat_addrDst, frameOf_eq _ _ hp]
  have hbuild : s.build pcb data = .ok (s.built (frameHead (addrSrc s.a0) (addrDst s.a0) pcb data ++
      [lrc (frameHead (addrSrc s.a0) (addrDst s.a0) pcb data)])) := by
    rw [State.build, mkFrame_ok.2 ⟨hmode, hmax, rfl⟩]
  rw [hbuild]
  refine ⟨_, rfl, stored_writeRange hm.fb_wf 0 _, ?_⟩
  rw [State.complete_ok, ← Block.header_frameFields, ← length_frame]
  rfl

/-- Settles O29: the tests of mode and size, then the frame. -/
theorem t1mkiBuildsFrame : Obligations.T1mkiBuildsFrame := by
  unfold Obligations.T1mkiBuildsFrame
  refine ⟨rfl, fun s hm => ?_⟩
  intro raw
  rw [exec_t1mki, t1mkiBody]
  by_cases hmode : s.edcMode = 1#1
  · rw [if_pos hmode, if_pos hmode]
    rfl
  rw [if_neg hmode, if_neg hmode]
  by_cases hlong : lenMax < s.dlen.toNat
  · rw [if_pos (show 254 < _ from hlong), if_pos hlong]
    rfl
  rw [if_neg (show ¬ 254 < _ from hlong), if_neg hlong]
  have hbit : (s.a1.extractLsb' 0 1).toNat = s.a1.toNat % 2 := by simp
  exact State.complete_build hm hmode s.length_dbData (Nat.le_of_not_lt hlong) (hbit ▸ pcbI_eq _)

/-- Settles O30: the tests of mode and error code, then the frame. -/
theorem t1mkrBuildsFrame : Obligations.T1mkrBuildsFrame := by
  unfold Obligations.T1mkrBuildsFrame
  refine ⟨rfl, fun s hm => ?_⟩
  intro raw
  rw [exec_t1mkr, t1mkrBody]
  by_cases hmode : s.edcMode = 1#1
  · rw [if_pos hmode, if_pos hmode]
    rfl
  rw [if_neg hmode, if_neg hmode]
  by_cases hcode : 2 < s.a2.toNat
  · rw [if_pos hcode, if_pos hcode]
    rfl
  rw [if_neg hcode, if_neg hcode]
  have hbit : (s.a1.extractLsb' 0 1).toNat = s.a1.toNat % 2 := by simp
  have herr : (s.a2.extractLsb' 0 4).toNat = s.a2.toNat := by
    simp only [BitVec.extractLsb'_toNat, Nat.shiftRight_zero]
    omega
  have hpcb := pcbR_eq (s.a1.extractLsb' 0 1) (s.a2.extractLsb' 0 4)
  rw [hbit, herr] at hpcb
  exact State.complete_build hm hmode (data := []) rfl (Nat.zero_le _) hpcb

/-- Settles O31: the tests of mode, code and size, then the frame. -/
theorem t1mksBuildsFrame : Obligations.T1mksBuildsFrame := by
  unfold Obligations.T1mksBuildsFrame
  refine ⟨rfl, fun s hm => ?_⟩
  intro raw
  have hcode : s.a1.extractLsb' 0 6 = BitVec.ofNat 6 (s.a1.toNat % 64) := BitVec.eq_of_toNat_eq (by simp)
  have hpcb : pcbS (s.a1.extractLsb' 0 6) = BitVec.ofNat 8 (0xC0 + s.a1.toNat % 64) := by
    rw [pcbS_eq]
    simp
  rw [exec_t1mks, t1mksBody, ← hcode]
  by_cases hmode : s.edcMode = 1#1
  · rw [if_pos hmode, if_pos hmode]
    rfl
  rw [if_neg hmode, if_neg hmode]
  by_cases hmem : s.a1.extractLsb' 0 6 ∉ s.cfg.scode.codes
  · rw [if_pos hmem, if_pos hmem]
    rfl
  rw [if_neg hmem, if_neg hmem]
  by_cases hlong : lenMax < s.dlen.toNat
  · rw [if_pos (show 254 < _ from hlong), if_pos hlong]
    rfl
  rw [if_neg (show ¬ 254 < _ from hlong), if_neg hlong]
  exact State.complete_build hm hmode s.length_dbData (Nat.le_of_not_lt hlong) hpcb

/-! ### T1PARSE -/

theorem exec_t1parse (s : State) : exec .t1parse s = .next (s.complete (t1parseBody s)) := rfl

/-- In LRC mode, past the tests of the size, the EDC decides, and an accepted frame is given back by its fields
(30_encoding R103). -/
theorem t1Parse_of_lenMatches_edc {raw : List Byte} (h : LenMatches raw) :
    t1Parse 0#1 raw =
      if lrc (raw.take (raw.length - 1)) ≠ raw.getD (raw.length - 1) 0#8 then .error .edcError
      else .ok (frameFields raw) := by
  have hlen := h.2
  have hsplit := lrc_take_eq_getD_iff (raw := raw) (n := raw.length - 1) (by omega)
  obtain ⟨b, hb⟩ := t1Parse_of_lenMatches h
  rw [hb]
  by_cases hzero : lrc raw = 0#8
  · rw [if_pos hzero] at hb ⊢
    rw [if_neg (not_not.2 (hsplit.2 hzero)), frameFields_of_parse hb]
  · rw [if_neg hzero, if_pos fun heq => hzero (hsplit.1 heq)]

/-- The tests of the size on the octets of FB (42_t1_block_unit R175). -/
theorem State.lenMatches_fbFrame (s : State) : LenMatches s.fbFrame ↔
    ¬ (s.flen.toNat < 4 ∨ (s.fb.read 2).toNat = 255 ∨ s.flen.toNat ≠ (s.fb.read 2).toNat + 4) := by
  have hff : s.fb.read 2 ≠ 0xFF#8 ↔ (s.fb.read 2).toNat ≠ 255 := by
    rw [Ne, ← BitVec.toNat_inj]
    rfl
  rw [LenMatches, State.length_fbFrame]
  by_cases hshort : s.flen.toNat ≤ 2
  · exact iff_of_false (fun h => by omega) fun h => h (.inl (by omega))
  · rw [State.fbFrame, Memory.getD_readRange _ _ _ _ (by omega), Nat.zero_add, hff]
    omega

/-- The fields of FB where the length of the frame is the one its LEN octet asks for. -/
theorem State.frameFields_fbFrame {s : State} {len : Nat} (h : s.flen.toNat = len + 4) :
    (frameFields s.fbFrame).nad = s.fb.read 0 ∧ (frameFields s.fbFrame).pcb = s.fb.read 1 ∧
      (frameFields s.fbFrame).data = octetsAt s.fb.read 3 len := by
  refine ⟨?_, ?_, ?_⟩
  · exact (Memory.getD_readRange _ _ _ _ (by omega) _).trans (by rw [Nat.zero_add])
  · exact (Memory.getD_readRange _ _ _ _ (by omega) _).trans (by rw [Nat.zero_add])
  · simp only [frameFields, State.fbFrame, Memory.drop_readRange, octetsAt_read, List.dropLast_eq_take,
      Memory.length_readRange, Nat.zero_add]
    rw [Memory.take_readRange _ (by omega), show s.flen.toNat - 3 - 1 = len by omega]

/-- Settles O32: the tests in their order, then the fields of the frame. -/
theorem t1parseVerifiesFrame : Obligations.T1parseVerifiesFrame := by
  unfold Obligations.T1parseVerifiesFrame
  refine ⟨rfl, fun s hm => ?_⟩
  intro raw len nad pcb data type
  have hraw : raw = s.fbFrame := rfl
  rw [exec_t1parse, t1parseBody]
  by_cases hmode : s.edcMode = 1#1
  · rw [if_pos hmode, hmode]
    rfl
  have hlrc : s.edcMode = 0#1 := (by decide : ∀ m : BitVec 1, m ≠ 1#1 → m = 0#1) _ hmode
  have hparse : t1Parse s.edcMode s.fbFrame = t1Parse 0#1 s.fbFrame := by rw [hlrc]
  rw [if_neg hmode, hparse]
  by_cases hsize : LenMatches s.fbFrame
  · rw [if_neg (s.lenMatches_fbFrame.1 hsize), t1Parse_of_lenMatches_edc hsize, xorAll_eq_lrc, hraw]
    have hlen : s.flen.toNat = len + 4 := by
      have := s.lenMatches_fbFrame.1 hsize
      omega
    have hlast : s.fbFrame.getD (s.flen.toNat - 1) 0#8 = s.fb.read (s.flen.toNat - 1) :=
      (Memory.getD_readRange _ _ _ _ (by omega) _).trans (by rw [Nat.zero_add])
    rw [State.length_fbFrame, hlast]
    split
    · rfl
    · obtain ⟨hnad, hpcb, hdata⟩ := State.frameFields_fbFrame hlen
      refine ⟨_, rfl, ?_, ?_⟩
      · show Stored s.db (s.db.writeRange 0 (frameFields s.fbFrame).data) 0 data
        rw [hdata]
        exact stored_writeRange hm.db_wf 0 _
      · have hdlen : (frameFields s.fbFrame).data.length = len := by rw [hdata]; simp [octetsAt]
        have htype := toNat_blockType_code (s.fb.read 1)
        simp only [State.complete_ok, State.finish, State.storeData, Block.header_frameFields, addressWord_nad, hnad,
          hpcb, htype, hdlen]
        rfl
  · rw [if_pos (not_not.1 fun h => hsize (s.lenMatches_fbFrame.2 h)), t1Parse_of_not_lenMatches hsize]
    rfl

end Sys2Proof.Machine
end

section
/-! SUPPORT. The arms of internal_transmit, each on the command that waits (43_t1_protocol R193 to R199, R207), and the
events that run an instruction or nothing (44_system R220, 20_memory R72). -/

namespace Sys2Proof.Machine

/-! ### What an answer of each kind comes to -/

section
variable {s : State} {w : Work}

theorem State.answer_fail (hw : s.work = some w) : s.answer .fail = s.failJob w.job .transportError := by
  simp [State.answer, State.receive, hw]

theorem State.answer_lengthMismatch (hw : s.work = some w) {g : List Byte}
    (h : t1Parse 0#1 (g.take fbCap) = .error .lengthMismatch) : s.answer (.ok g) =
      ({ s with work := some { w with rx := g.take fbCap } } : State).failJob w.job .lengthMismatch := by
  simp [State.answer, State.receive, hw, h]

theorem State.answer_edcError (hw : s.work = some w) {g : List Byte}
    (h : t1Parse 0#1 (g.take fbCap) = .error .edcError) : s.answer (.ok g) =
      ({ s with work := some { w with rx := g.take fbCap } } : State).armEdc { w with rx := g.take fbCap } := by
  simp [State.answer, State.receive, hw, h]

/-- A frame whose PCB is an instruction runs it, on the working storage that holds its octets. -/
theorem State.receive_block (hw : s.work = some w) {g : List Byte} {b : Block} {i : Instr}
    (hb : t1Parse 0#1 (g.take fbCap) = .ok b) (hi : decodePcb s.cfg.scode b.pcb = .ok i) :
    s.receive (.ok g) = .run i { s with work := some { w with rx := g.take fbCap } } := by
  simp [State.receive, hw, hb, hi]

theorem State.answer_block (hw : s.work = some w) {g : List Byte} {b : Block} {i : Instr}
    (hb : t1Parse 0#1 (g.take fbCap) = .ok b) (hi : decodePcb s.cfg.scode b.pcb = .ok i) :
    s.answer (.ok g) = ({ s with work := some { w with rx := g.take fbCap } } : State).reply i := by
  rw [State.answer, State.receive_block hw hb hi]

end

theorem GoodFrame.exists_block {raw : List Byte} (h : GoodFrame raw) : ∃ b, t1Parse 0#1 raw = .ok b := by
  cases hb : t1Parse 0#1 raw with
  | ok b => exact ⟨b, rfl⟩
  | error e => rw [GoodFrame, hb] at h; cases h

/-! ### Events that run an instruction or nothing -/

/-- Settles O5: the write reaches an idle engine as that command on the started state. -/
theorem stepRunsDecodedCommand : Obligations.StepRunsDecodedCommand := by
  unfold Obligations.StepRunsDecodedCommand
  intro s v rest i hidle hin hi
  exact step_of_run hin (State.arrive_command (s := { s with inputs := rest }) hidle hi)

/-- Settles O6: the frame reaches the waiting engine as the instruction of its PCB. -/
theorem stepRunsDecodedReply : Obligations.StepRunsDecodedReply := by
  unfold Obligations.StepRunsDecodedReply
  intro s w g rest b i hw hin hb hi
  exact step_of_run hin (State.receive_block (s := { s with inputs := rest }) hw hb hi)

/-- No instruction stops the machine (log entry 18). -/
theorem exists_exec (i : Instr) (s : State) : ∃ t, exec i s = .next t := by
  cases hf : i.format with
  | pcb => exact ⟨_, exec_of_pcb hf s⟩
  | cmd =>
    rcases format_cmd_iff.1 hf with hi | rfl | rfl
    · exact ⟨_, exec_transactional hi s⟩
    · exact ⟨_, exec_t1open s⟩
    · exact ⟨_, exec_t1xmit s⟩

/-- Settles O12: an event is settled or runs an instruction; without an exchange nothing is received. -/
theorem stepAlwaysAnswers : Obligations.StepAlwaysAnswers := by
  unfold Obligations.StepAlwaysAnswers
  refine ⟨fun s => ?_, fun _ => step_nil, fun s a rest hw hin => ?_, fun i s hi hw => ?_⟩
  · rcases step_cases s with ⟨-, h⟩ | ⟨_, _, -, ⟨t, -, h⟩ | ⟨i, t, -, h⟩⟩
    · exact ⟨s, h⟩
    · exact ⟨t, h⟩
    · rw [h]
      exact exists_exec i t
  · rw [step_line hin, State.answer_idle (s := { s with inputs := rest }) hw]
  · rw [exec_of_pcb hi, State.reply_idle hw]

/-! ### The PCB octet as a number -/

theorem toNat_pcbOctetI : ∀ (ns more : BitVec 1) (ignored : BitVec 5),
    (pcbOctetI ns more ignored).toNat = ns.toNat * 64 + more.toNat * 32 + ignored.toNat := by decide

theorem pcbS_eq_or : ∀ code : BitVec 6, pcbS code = 0xC0#8 ||| code.setWidth 8 := by decide

theorem blockType_pcbS : ∀ code : BitVec 6, blockType (pcbS code) = .S := by decide

theorem pcbSCode_pcbS : ∀ code : BitVec 6, pcbSCode (pcbS code) = code := by decide

theorem ifsOfOctet_eq : ∀ b : Byte, ifsOfOctet b = b := by decide

theorem pcb_frameFields (raw : List Byte) : (frameFields raw).pcb = raw.getD 1 0#8 := rfl

/-! ### The frames that the engine sends -/

theorem State.ifsFrame_eq (s : State) : s.ifsFrame =
    frameOf s.haddr.toNat s.daddr.toNat (0xC0 + s.cfg.scode.ifsRequest.toNat) [s.cfg.ifsDefault] :=
  (frameOf_eq _ _ (pcbS_eq _) _).symm

theorem State.resynchFrame_eq (s : State) : s.resynchFrame =
    frameOf s.haddr.toNat s.daddr.toNat (0xC0 + s.cfg.scode.resynchRequest.toNat) [] :=
  (frameOf_eq _ _ (pcbS_eq _) _).symm

theorem State.edcFrame_eq (s : State) (w : Work) : s.edcFrame w =
    frameOf s.haddr.toNat ((w.out.getD 0 0#8).toNat / 16 % 8) (0x81 + s.rseq.toNat * 16) [] := by
  rw [← toNat_nadDst, frameOf_eq _ _ (pcbR_edc_eq _)]
  rfl

theorem wtxFrame_eq (s : State) (n : Byte) (data : List Byte) : wtxFrame s (nadDst n) data =
    frameOf s.haddr.toNat (n.toNat / 16 % 8) (0xC0 + s.cfg.scode.wtxResponse.toNat) data := by
  rw [← toNat_nadDst, frameOf_eq _ _ (pcbS_eq _)]
  rfl

/-! ### Arm by arm -/

/-- The last level of a T1XMIT ends it with TooManyRetries (43_t1_protocol R192, R202). -/
theorem State.retransmit_xmit_last {s : State} {w : Work} (hr : w.retries = 1) (hj : w.job = .xmit) (out : List Byte) :
    s.retransmit w out = s.abortWith .tooManyRetries 0#8 := by
  rw [State.retransmit_last _ _ (by omega), hj, State.failJob_xmit]

theorem State.reply_pcbI {s : State} {w : Work} (hw : s.work = some w) (hj : w.job = .xmit)
    (ns more : BitVec 1) (ignored : BitVec 5) :
    s.reply (.pcbI ns more ignored) =
      ({ s with rseq := s.rseq ^^^ 1#1 } : State).endXmit (received w (pcbOctetI ns more ignored)) := by
  simp only [State.reply, State.whileWaiting_some hw, State.armI, hj, State.returnBlock]

/-- Settles O38: arm I ends T1XMIT with the received block. -/
theorem pcbIEndsTransmit : Obligations.PcbIEndsTransmit := by
  unfold Obligations.PcbIEndsTransmit
  intro s w ns more ignored hm hw hj data nad pcb
  have hpcb : (pcbOctetI ns more ignored).toNat = pcb := toNat_pcbOctetI ns more ignored
  have hheader : (received w (pcbOctetI ns more ignored)).header = BitVec.ofNat 32 (nad + pcb * 2 ^ 8 +
      (w.rx.getD 2 0#8).toNat * 2 ^ 16 + (w.rx.getLastD 0#8).toNat * 2 ^ 24) :=
    hpcb ▸ headerWord_eq _ _ _ _
  have haddress := addressWord_nad (w.rx.getD 0 0#8) 0#2
  refine ⟨_, exec_of_pcb rfl s, ?_, ?_⟩ <;> rw [State.reply_pcbI hw hj, State.endXmit_eq]
  · exact stored_writeRange hm.db_wf 0 data
  · rw [hheader]
    exact congrArg (fun r1 => ({ s with
      db := s.db.writeRange 0 data, dlen := BitVec.ofNat 16 data.length
      r0 := BitVec.ofNat 32 (nad + pcb * 2 ^ 8 + (w.rx.getD 2 0#8).toNat * 2 ^ 16 +
        (w.rx.getLastD 0#8).toNat * 2 ^ 24)
      r1 := r1, rseq := s.rseq ^^^ 1#1, sseq := if s.cfg.sendSeqAdvance then s.sseq ^^^ 1#1 else s.sseq
      status := 2#32, work := none } : State)) haddress

theorem State.reply_pcbR {s : State} {w : Work} (hw : s.work = some w) (ignored nr : BitVec 1) (err : BitVec 4) :
    s.reply (.pcbR ignored nr err) =
      if s.slotLen nr = 0#16 then s.failJob w.job .resendSlotEmpty else s.retransmit w (s.slot nr) := by
  simp only [State.reply, State.whileWaiting_some hw, State.armR]

theorem State.slot_eq_octetsAt (s : State) (p : BitVec 1) :
    s.slot p = octetsAt (if p = 0#1 then s.ls0.read else s.ls1.read) 0 (s.slotLen p).toNat := by
  unfold State.slot State.slotLen
  split <;> rfl

/-- Settles O39: arm R, on an empty slot, on a slot that is resent, and without a retry. -/
theorem pcbRResendsSlot : Obligations.PcbRResendsSlot := by
  unfold Obligations.PcbRResendsSlot
  intro s w ignored nr err hw len frame
  have hframe : s.slot nr = frame := s.slot_eq_octetsAt nr
  rw [exec_of_pcb rfl, State.reply_pcbR hw, hframe, show s.slotLen nr = len from rfl]
  refine ⟨fun hlen hr => ?_, fun hlen hj => ?_, fun hlen hr hj => ?_⟩
  · rw [if_neg hlen, State.retransmit_pos _ _ hr]
    rfl
  · rw [if_pos hlen, hj]
    rfl
  · rw [if_neg hlen, State.retransmit_xmit_last hr hj]
    rfl

theorem State.reply_pcbWtxRequest {s : State} {w : Work} (hw : s.work = some w)
    (hrx : (frameFields w.rx).data.length ≤ lenMax) :
    s.reply .pcbWtxRequest =
      s.retransmit w (wtxFrame s (nadDst (frameFields w.out).nad) (frameFields w.rx).data) := by
  simp only [State.reply, State.whileWaiting_some hw, State.armWtx, mkFrame_ok.2 ⟨(by decide : 0#1 ≠ 1#1), hrx, rfl⟩,
    wtxFrame]

/-- Settles O40: arm WTX echoes the data field of the accepted frame. -/
theorem pcbWtxIsAnswered : Obligations.PcbWtxIsAnswered := by
  unfold Obligations.PcbWtxIsAnswered
  intro s w hw hgood out
  obtain ⟨b, hb⟩ := hgood.exists_block
  have hout : wtxFrame s (nadDst (frameFields w.out).nad) (frameFields w.rx).data = out := wtxFrame_eq s _ _
  rw [exec_of_pcb rfl, State.reply_pcbWtxRequest hw (length_data_of_goodFrame hb), hout]
  refine ⟨fun hr => ?_, fun hr hj => ?_⟩
  · rw [State.retransmit_pos _ _ hr]
    rfl
  · rw [State.retransmit_xmit_last hr hj]
    rfl

theorem State.reply_pcbResynchResponse {s : State} {w : Work} (hw : s.work = some w) : s.reply .pcbResynchResponse =
    if (frameFields w.out).pcb = pcbS s.cfg.scode.resynchRequest then
      s.returnBlock w.job (received w (pcbS s.cfg.scode.resynchResponse)) else s.armUnknown w := by
  simp only [State.reply, State.whileWaiting_some hw, State.armResynch]

theorem State.reply_pcbIfsResponse {s : State} {w : Work} (hw : s.work = some w) : s.reply .pcbIfsResponse =
    if (frameFields w.out).pcb = pcbS s.cfg.scode.ifsRequest then
      s.returnBlock w.job (received w (pcbS s.cfg.scode.ifsResponse)) else s.armUnknown w := by
  simp only [State.reply, State.whileWaiting_some hw, State.armIfs]

/-- The RESYNCH half goes on to the IFS half (43_t1_protocol R200). -/
theorem State.endResynch_of_code {s : State} {b : Block} (hb : b.pcb = pcbS s.cfg.scode.resynchResponse)
    (hr : 1 ≤ s.cfg.retryBudget) (a : Nat) : s.endResynch a b =
      ({ s with sseq := 0#1, rseq := 0#1 } : State).callExchange (.opening a .ifs) s.cfg.retryBudget s.ifsFrame := by
  rw [State.endResynch_eq, hb, if_pos ⟨blockType_pcbS _, pcbSCode_pcbS _⟩, State.transmit_pos _ _ (by omega)]

/-- The IFS half ends T1OPEN (43_t1_protocol R200, 30_encoding R104). -/
theorem State.endIfs_of_code {s : State} {b : Block} (hb : b.pcb = pcbS s.cfg.scode.ifsResponse) (hlen : b.len = 1#8)
    (a : Nat) :
    s.endIfs a b = ({ s with ifs := b.data.getD 0 0#8, work := none } : State).finish := by
  rw [State.endIfs, hb, if_pos ⟨blockType_pcbS _, pcbSCode_pcbS _, hlen⟩, ifsOfOctet_eq]

/-- In an accepted frame of five octets LEN is 1 and the data field is its fourth octet. -/
theorem fields_of_length_five {raw : List Byte} {b : Block} (h : t1Parse 0#1 raw = .ok b) (hlen : raw.length = 5) :
    (frameFields raw).len = 1#8 ∧ (frameFields raw).data.getD 0 0#8 = raw.getD 3 0#8 := by
  have hsize : raw.length = (raw.getD 2 0#8).toNat + 4 := (goodFrame_iff.1 (by rw [GoodFrame, h]; rfl)).1.2
  refine ⟨BitVec.eq_of_toNat_eq (show (raw.getD 2 0#8).toNat = 1 by omega), ?_⟩
  match raw, hlen with
  | [_, _, _, _, _], _ => rfl

/-- Settles O41: the two responses that T1OPEN asked for. -/
theorem pcbResponsesAdvanceOpen : Obligations.PcbResponsesAdvanceOpen := by
  unfold Obligations.PcbResponsesAdvanceOpen
  intro s w a hw
  refine ⟨fun hj hout hr => ?_, fun hj hout hgood hlen => ?_⟩
  · rw [← pcbS_eq_or] at hout
    rw [exec_of_pcb rfl, State.reply_pcbResynchResponse hw, pcb_frameFields, if_pos hout, hj, ← State.ifsFrame_eq]
    exact congrArg _ (State.endResynch_of_code rfl hr a)
  · rw [← pcbS_eq_or] at hout
    obtain ⟨b, hb⟩ := hgood.exists_block
    obtain ⟨hone, hdata⟩ := fields_of_length_five hb hlen
    rw [exec_of_pcb rfl, State.reply_pcbIfsResponse hw, pcb_frameFields, if_pos hout, hj, ← hdata]
    exact congrArg _ (State.endIfs_of_code (b := received w (pcbS s.cfg.scode.ifsResponse)) rfl hone a)

/-- The octets that select arm unknown: six codes of no arm, and a response to another request (R197 to R199). -/
theorem State.reply_unknown {s : State} {w : Work} (hw : s.work = some w) {i : Instr}
    (hi : i ∈ ([.pcbResynchRequest, .pcbIfsRequest, .pcbAbortRequest, .pcbAbortResponse, .pcbWtxResponse,
        .pcbVppStateErrorResponse] : List Instr) ∨
      (i = .pcbResynchResponse ∧ w.out.getD 1 0#8 ≠ 0xC0#8 ||| s.cfg.scode.resynchRequest.setWidth 8) ∨
      (i = .pcbIfsResponse ∧ w.out.getD 1 0#8 ≠ 0xC0#8 ||| s.cfg.scode.ifsRequest.setWidth 8)) :
    i.format = .pcb ∧ s.reply i = s.armUnknown w := by
  rw [← pcbS_eq_or, ← pcbS_eq_or] at hi
  rcases hi with hi | ⟨rfl, hout⟩ | ⟨rfl, hout⟩
  · simp only [List.mem_cons, List.not_mem_nil, or_false] at hi
    rcases hi with rfl | rfl | rfl | rfl | rfl | rfl <;> exact ⟨rfl, State.whileWaiting_some hw _⟩
  · exact ⟨rfl, by rw [State.reply_pcbResynchResponse hw, pcb_frameFields, if_neg hout]⟩
  · exact ⟨rfl, by rw [State.reply_pcbIfsResponse hw, pcb_frameFields, if_neg hout]⟩

theorem State.armUnknown_retry {s : State} {w : Work} (h : s.cfg.unknownReply = .retrySame) :
    s.armUnknown w = s.retransmit w w.out := by
  rw [State.armUnknown, h]

theorem State.armUnknown_fail {s : State} {w : Work} (h : s.cfg.unknownReply = .fail) :
    s.armUnknown w = s.failJob w.job .unexpectedBlock := by
  rw [State.armUnknown, h]

/-- Settles O42: arm unknown under its two policies. -/
theorem pcbUnknownRepeats : Obligations.PcbUnknownRepeats := by
  unfold Obligations.PcbUnknownRepeats
  intro s w hw i hi
  obtain ⟨hformat, hreply⟩ := State.reply_unknown hw hi
  rw [exec_of_pcb hformat, hreply]
  refine ⟨fun hp hr => ?_, fun hp hr hj => ?_, fun hp hj => ?_⟩
  · rw [State.armUnknown_retry hp, State.retransmit_pos _ _ hr]
    rfl
  · rw [State.armUnknown_retry hp, State.retransmit_xmit_last hr hj]
    rfl
  · rw [State.armUnknown_fail hp, hj]
    rfl

/-! ### The slots -/

/-- What a store in a slot leaves: the frame in that slot, and the other slot as before (10_state R29). -/
theorem State.storeSlot_stored {s : State} (hm : s.MemoryInv) (p : BitVec 1) (raw : List Byte) :
    if p = 0#1 then Stored s.ls0 (s.storeSlot p raw).ls0 0 raw ∧
      (s.storeSlot p raw).ls0len = BitVec.ofNat 16 raw.length ∧ (s.storeSlot p raw).ls1 = s.ls1 ∧
      (s.storeSlot p raw).ls1len = s.ls1len
    else Stored s.ls1 (s.storeSlot p raw).ls1 0 raw ∧
      (s.storeSlot p raw).ls1len = BitVec.ofNat 16 raw.length ∧ (s.storeSlot p raw).ls0 = s.ls0 ∧
      (s.storeSlot p raw).ls0len = s.ls0len := by
  by_cases hp : p = 0#1
  · simpa [hp] using stored_writeRange hm.ls0_wf 0 raw
  · simpa [hp] using stored_writeRange hm.ls1_wf 0 raw

/-- The state after the R-block of arm EDC is stored: SSEQ toggled, the R-block in the slot it then names
(43_t1_protocol R196). -/
def State.nacked (s : State) (w : Work) : State :=
  ({ s with sseq := s.sseq ^^^ 1#1 } : State).storeSlot (s.sseq ^^^ 1#1) (s.edcFrame w)

theorem State.armEdc_eq (s : State) (w : Work) : s.armEdc w = (s.nacked w).retransmit w (s.edcFrame w) := rfl

/-- It differs from the state before in SSEQ and the slots alone. -/
theorem State.nacked_frame (s : State) (w : Work) : s.nacked w = { s with
    sseq := s.sseq ^^^ 1#1
    ls0 := (s.nacked w).ls0, ls1 := (s.nacked w).ls1
    ls0len := (s.nacked w).ls0len, ls1len := (s.nacked w).ls1len } := by
  unfold State.nacked State.storeSlot
  split <;> rfl

theorem State.nacked_running (s : State) (w : Work) (x : Option Work) (rx : List Byte) :
    ({ s with work := x } : State).nacked { w with rx := rx } = { s.nacked w with work := x } := by
  unfold State.nacked State.storeSlot
  split <;> rfl

/-- With a retry left, a wrong EDC makes the engine store the R-block and send it. -/
theorem State.answer_edcError_again {s : State} {w : Work} (hw : s.work = some w) (hr : 2 ≤ w.retries) {g : List Byte}
    (h : t1Parse 0#1 (g.take fbCap) = .error .edcError) :
    s.answer (.ok g) = (s.nacked w).callExchange w.job (w.retries - 1) (s.edcFrame w) := by
  rw [State.answer_edcError hw h, State.armEdc_eq, State.nacked_running,
    State.retransmit_pos _ { w with rx := g.take fbCap } hr]
  rfl

/-- Without one it makes the engine store the R-block and ends T1XMIT. -/
theorem State.answer_edcError_last {s : State} {w : Work} (hw : s.work = some w) (hr : w.retries = 1)
    (hj : w.job = .xmit) {g : List Byte} (h : t1Parse 0#1 (g.take fbCap) = .error .edcError) :
    s.answer (.ok g) = (s.nacked w).abortWith .tooManyRetries 0#8 := by
  rw [State.answer_edcError hw h, State.armEdc_eq, State.nacked_running,
    State.retransmit_xmit_last (w := { w with rx := g.take fbCap }) hr hj]
  rfl

/-- Settles O43: arm EDC with a retry left. -/
theorem edcFailureSendsRBlock : Obligations.EdcFailureSendsRBlock := by
  unfold Obligations.EdcFailureSendsRBlock
  intro s w g rest hm hw hr hin hg rb
  have hframe : s.edcFrame w = rb := s.edcFrame_eq w
  refine ⟨_, step_line hin, ?_⟩
  rw [State.answer_edcError_again (s := { s with inputs := rest }) hw hr hg]
  refine ⟨?_, ?_⟩
  · have hslot := State.storeSlot_stored (s := { s with inputs := rest, sseq := s.sseq ^^^ 1#1 })
      (hm.congr rfl rfl rfl rfl rfl rfl) (s.sseq ^^^ 1#1) (s.edcFrame w)
    rw [hframe] at hslot
    have hbit := (by decide : ∀ p : BitVec 1, p ^^^ 1#1 = 0#1 ↔ p = 1#1) s.sseq
    simp only [hbit] at hslot
    rw [← hframe] at hslot ⊢
    exact hslot
  · rw [← hframe]
    exact congrArg (fun u => State.callExchange u w.job (w.retries - 1) (s.edcFrame w))
      (State.nacked_frame { s with inputs := rest } w)

/-! ### Failures of the LINE -/

/-- A failure that ends a level of the last attempt ends the command (43_t1_protocol R201). -/
theorem State.failJob_last_attempt (s : State) (ph : Phase) (e : Err) :
    s.failJob (.opening s.cfg.openAttempts ph) e = s.abortWith .initFailed e.code := by
  rw [State.failJob_opening, Nat.sub_self, State.tryOpen]

/-- Settles O44: a failure of the LINE and a wrong size both fail the job at once. -/
theorem lineFailureIsFatal : Obligations.LineFailureIsFatal := by
  unfold Obligations.LineFailureIsFatal
  intro s w a rest code hw hin hcause
  have hanswer : ∃ x e, code = Err.code e ∧ ({ s with inputs := rest } : State).answer a =
      ({ s with inputs := rest, work := x } : State).failJob w.job e := by
    rcases hcause with ⟨rfl, rfl⟩ | ⟨g, rfl, hg, rfl⟩
    · exact ⟨s.work, .transportError, rfl, State.answer_fail hw⟩
    · exact ⟨_, .lengthMismatch, rfl, State.answer_lengthMismatch (s := { s with inputs := rest }) hw hg⟩
  obtain ⟨x, e, rfl, hanswer⟩ := hanswer
  rw [step_line hin, hanswer]
  refine ⟨fun hj => ?_, fun ph hj => ?_⟩
  · rw [hj]
    rfl
  · rw [hj]
    exact congrArg _ (State.failJob_last_attempt _ ph e)

end Sys2Proof.Machine
end

section
/-! SUPPORT. T1XMIT with one good answer, and with three frames of a wrong EDC (43_t1_protocol R193, R202, R205). -/

namespace Sys2Proof.Machine

/-! ### The I-block is sent -/

/-- T1XMIT whose three tests pass stores the I-block in the slot of SSEQ and sends it (43_t1_protocol R202). -/
theorem State.beginXmit_of_tests {s : State} (hmode : s.edcMode = 0#1) (hifs : s.dlen.toNat ≤ s.ifs.toNat)
    (hlen : s.dlen.toNat ≤ 254) (hr : 1 ≤ s.cfg.retryBudget) : s.beginXmit =
      (s.storeSlot s.sseq s.xmitFrame).callExchange .xmit s.cfg.retryBudget s.xmitFrame := by
  have hne : s.edcMode ≠ 1#1 := by rw [hmode]; decide
  rcases s.beginXmit_cases with ⟨h, -⟩ | ⟨-, ⟨h, -⟩ | ⟨-, ⟨h, -⟩ | ⟨-, heq⟩⟩⟩
  · omega
  · exact absurd h hne
  · exact absurd hlen (Nat.not_le.2 h)
  · rw [heq, State.transmit_pos _ _ (by omega)]

theorem State.xmitFrame_eq (s : State) : s.xmitFrame =
    frameOf s.haddr.toNat (s.a0.toNat % 8) (s.sseq.toNat * 64) (octetsAt s.db.read 0 s.dlen.toNat) := by
  rw [← toNat_addrSrc, frameOf_eq _ _ (pcbI_eq _)]
  rfl

/-- A PCB below 0x80 is that of an I-block (30_encoding R95, R96). -/
theorem exists_pcbOctetI {p : Byte} (h : p.toNat < 0x80) : ∃ ns more ignored, pcbOctetI ns more ignored = p :=
  ⟨_, _, _, (pcbOctet_of_fields p).1 ((by decide : ∀ p : Byte, p.toNat < 0x80 → p.extractLsb' 7 1 = 0#1) p h)⟩

/-- An accepted frame is at most 258 octets long, so the engine keeps all of it (30_encoding R103). -/
theorem take_fbCap_of_parse {g : List Byte} {b : Block} (h : t1Parse 0#1 g = .ok b) : g.take fbCap = g := by
  have hcap : fbCap = 259 := rfl
  have hsize : g.length = (g.getD 2 0#8).toNat + 4 := (goodFrame_iff.1 (by rw [GoodFrame, h]; rfl)).1.2
  have hbyte := (g.getD 2 0#8).isLt
  exact List.take_of_length_le (by omega)

/-- A waiting T1XMIT that receives an I-block ends with it (43_t1_protocol R193, R202). -/
theorem State.answer_iBlock {s : State} {w : Work} (hw : s.work = some w) (hj : w.job = .xmit) {g : List Byte}
    {b : Block} (hb : t1Parse 0#1 g = .ok b) (hpcb : b.pcb.toNat < 0x80) :
    s.answer (.ok g) = ({ s with rseq := s.rseq ^^^ 1#1 } : State).endXmit b := by
  obtain ⟨ns, more, ignored, hp⟩ := exists_pcbOctetI hpcb
  have htake := take_fbCap_of_parse hb
  have hrec : received { w with rx := g } (pcbOctetI ns more ignored) = b := by
    rw [hp, received, ← frameFields_of_parse hb]
  rw [State.answer_block hw (htake.symm ▸ hb) (by rw [← hp]; exact decodePcb_pcbOctetI _ ns more ignored), htake,
    State.reply_pcbI (w := { w with rx := g }) rfl hj, hrec, State.endXmit_eq, State.endXmit_eq]

/-- The I-block that answers the one exchange of a T1XMIT ends the command; the events after it stay. -/
theorem State.serve_iBlock (u : State) (r : Nat) (out : List Byte) {g : List Byte} {b : Block} (rest : List Input)
    (hb : t1Parse 0#1 g = .ok b) (hpcb : b.pcb.toNat < 0x80) :
    State.serve (.line (.ok g) :: rest) (u.callExchange .xmit r out) = { u with
      db := u.db.writeRange 0 b.data
      dlen := BitVec.ofNat 16 b.data.length
      r0 := b.header
      r1 := addressWord (nadSrc b.nad) (nadDst b.nad) 0#2
      rseq := u.rseq ^^^ 1#1
      sseq := if u.cfg.sendSeqAdvance then u.sseq ^^^ 1#1 else u.sseq
      xcnt := u.xcnt + 1#32
      status := 2#32
      work := none
      inputs := rest } := by
  rw [State.serve_waiting rfl, State.answer_iBlock (w := ⟨.xmit, r, out, []⟩) rfl rfl hb hpcb, State.endXmit_eq,
    State.serve_idle rfl]
  rfl

/-- A store in a slot changes the slots alone. -/
theorem State.storeSlot_frame (s : State) (p : BitVec 1) (raw : List Byte) : s.storeSlot p raw = { s with
    ls0 := (s.storeSlot p raw).ls0, ls1 := (s.storeSlot p raw).ls1
    ls0len := (s.storeSlot p raw).ls0len, ls1len := (s.storeSlot p raw).ls1len } := by
  unfold State.storeSlot
  split <;> rfl

/-- Settles O36: the I-block is sent, the answer ends the command, and the events after it stay. -/
theorem t1xmitCompletes : Obligations.T1xmitCompletes := by
  unfold Obligations.T1xmitCompletes
  intro s g b rest hm hmode hifs hlen hr hin hb hpcb out
  have hout : s.xmitFrame = out := s.xmitFrame_eq
  have hlong : out.length ≤ fbCap := by
    have hcap : fbCap = 259 := rfl
    rw [← hout, State.length_xmitFrame]
    omega
  have hheader : b.header = headerOf g := by rw [← frameFields_of_parse hb, Block.header_frameFields]
  have haddress : addressWord (nadSrc b.nad) (nadDst b.nad) 0#2 =
      BitVec.ofNat 32 (b.nad.toNat % 8 + b.nad.toNat / 16 % 8 * 16) := addressWord_nad b.nad 0#2
  have hslot := State.storeSlot_stored hm s.sseq out
  have hframe := s.storeSlot_frame s.sseq out
  have hexec : exec .t1xmit s =
      .next (State.serve (.line (.ok g) :: rest)
        ((s.storeSlot s.sseq out).callExchange .xmit s.cfg.retryBudget out)) := by
    rw [exec_t1xmit, State.beginXmit_of_tests hmode hifs hlen hr, hin, hout]
  rw [hexec, State.serve_iBlock _ _ _ rest hb hpcb, hheader, haddress]
  generalize s.storeSlot s.sseq out = u at hslot hframe ⊢
  refine ⟨_, rfl, ?_, ?_, ?_⟩
  · rw [hframe]
    exact stored_writeRange hm.db_wf 0 b.data
  · by_cases hp : s.sseq = 0#1
    · rw [if_pos hp] at hslot ⊢
      obtain ⟨hstored, hlen, hother⟩ := hslot
      exact ⟨hstored, by rw [← toNat_length16 hlong, ← hlen], hother⟩
    · rw [if_neg hp] at hslot ⊢
      obtain ⟨hstored, hlen, hother⟩ := hslot
      exact ⟨hstored, by rw [← toNat_length16 hlong, ← hlen], hother⟩
  · rw [hframe]

/-! ### Three frames with a wrong EDC -/

/-- Both slots in canonical form. -/
def State.SlotsWf (s : State) : Prop := s.ls0.wf ∧ s.ls1.wf

theorem State.SlotsWf.storeSlot {s : State} (h : s.SlotsWf) (p : BitVec 1) (raw : List Byte) :
    (s.storeSlot p raw).SlotsWf := by
  obtain ⟨h0, h1⟩ := h
  unfold State.storeSlot
  split
  · exact ⟨Memory.writeRange_wf h0 0 raw, h1⟩
  · exact ⟨h0, Memory.writeRange_wf h1 0 raw⟩

/-- The slot `p` holds the R-block `rb`. -/
def State.Holds (s : State) (p : BitVec 1) (rb : List Byte) : Prop := s.slot p = rb ∧ s.slotLen p = 4#16

theorem State.holds_storeSlot {s : State} (h : s.SlotsWf) (p : BitVec 1) {rb : List Byte} (hrb : rb.length = 4) :
    (s.storeSlot p rb).Holds p rb := by
  obtain ⟨h0, h1⟩ := h
  exact ⟨State.slot_storeSlot h0 h1 p (by omega), by rw [State.slotLen_storeSlot, hrb]⟩

theorem State.Holds.storeSlot_other {s : State} {p q : BitVec 1} {rb : List Byte} (h : s.Holds q rb) (hq : q ≠ p)
    (raw : List Byte) : (s.storeSlot p raw).Holds q rb := by
  obtain ⟨hslot, hlen⟩ := h
  exact ⟨(s.slot_storeSlot_other hq raw).trans hslot, (s.slotLen_storeSlot_other hq raw).trans hlen⟩

/-- One exchange that brought a wrong EDC: it is counted, SSEQ toggled, and the R-block stored in the slot SSEQ then
names (43_t1_protocol R191, R196). -/
def State.nackedOnce (s : State) (es : List Input) (rb : List Byte) : State :=
  ({ s with xcnt := s.xcnt + 1#32, inputs := es, sseq := s.sseq ^^^ 1#1 } : State).storeSlot (s.sseq ^^^ 1#1) rb

theorem State.nacked_callExchange (u : State) (r : Nat) (es : List Input) (out : List Byte) :
    ({ u.callExchange .xmit r out with inputs := es } : State).nacked ⟨.xmit, r, out, []⟩ =
      { u.nackedOnce es (nackFrame u.haddr (nadDst (frameFields out).nad) u.rseq) with
        status := statusBusy, work := some ⟨.xmit, r, out, []⟩ } :=
  State.storeSlot_running { u with xcnt := u.xcnt + 1#32, inputs := es, sseq := u.sseq ^^^ 1#1 } _ _ _ _

/-- A frame with a wrong EDC that a T1XMIT receives with a retry left. -/
theorem State.serve_edcError {u : State} {g out rb : List Byte} (r : Nat) (rest : List Input)
    (hg : t1Parse 0#1 (g.take fbCap) = .error .edcError)
    (hrb : nackFrame u.haddr (nadDst (frameFields out).nad) u.rseq = rb) :
    State.serve (.line (.ok g) :: rest) (u.callExchange .xmit (r + 2) out) =
      State.serve rest ((u.nackedOnce rest rb).callExchange .xmit (r + 1) rb) := by
  subst hrb
  rw [State.serve_waiting rfl, State.answer_edcError_again (w := ⟨.xmit, r + 2, out, []⟩) rfl (by simp) hg,
    State.nacked_callExchange]
  rfl

/-- The same with the last retry: the command ends. -/
theorem State.serve_edcError_last {u : State} {g out rb : List Byte} (rest : List Input)
    (hg : t1Parse 0#1 (g.take fbCap) = .error .edcError)
    (hrb : nackFrame u.haddr (nadDst (frameFields out).nad) u.rseq = rb) :
    State.serve (.line (.ok g) :: rest) (u.callExchange .xmit 1 out) =
      (u.nackedOnce rest rb).abortWith .tooManyRetries 0#8 := by
  subst hrb
  rw [State.serve_waiting rfl, State.answer_edcError_last (w := ⟨.xmit, 1, out, []⟩) rfl rfl rfl hg,
    State.serve_idle rfl, State.nacked_callExchange]
  rfl

/-- One bit, counted up by one, is inverted. -/
theorem ofNat_one_succ (n : Nat) : BitVec.ofNat 1 (n + 1) = BitVec.ofNat 1 n ^^^ 1#1 := by
  rw [BitVec.ofNat_add]
  exact (by decide : ∀ b : BitVec 1, b + 1#1 = b ^^^ 1#1) _

/-- `u` is `s` with frames in its slots, after `n` exchanges that brought a wrong EDC. -/
structure Nacked (s : State) (rb : List Byte) (n : Nat) (u : State) : Prop where
  frame : u = s.withSession u
  wf : u.SlotsWf
  rseq : u.rseq = s.rseq
  sseq : u.sseq = s.sseq ^^^ BitVec.ofNat 1 n
  xcnt : u.xcnt = s.xcnt + BitVec.ofNat 32 n
  latest : 1 ≤ n → u.Holds u.sseq rb
  before : 2 ≤ n → u.Holds (u.sseq ^^^ 1#1) rb

theorem Nacked.once {s u : State} {rb : List Byte} {n : Nat} (h : Nacked s rb n u) (hrb : rb.length = 4)
    (es : List Input) : Nacked s rb (n + 1) (u.nackedOnce es rb) where
  frame := State.withSession_trans h.frame (State.withSession_trans (t := { u with
    xcnt := u.xcnt + 1#32, inputs := es, sseq := u.sseq ^^^ 1#1 }) rfl (State.withSession_storeSlot _ _ _))
  wf := State.SlotsWf.storeSlot (s := { u with xcnt := u.xcnt + 1#32, inputs := es, sseq := u.sseq ^^^ 1#1 }) h.wf _ _
  rseq := by rw [State.nackedOnce, State.storeSlot_rseq, h.rseq]
  sseq := by
    have hsseq : (u.nackedOnce es rb).sseq = u.sseq ^^^ 1#1 := State.storeSlot_sseq _ _ _
    rw [hsseq, h.sseq, BitVec.xor_assoc, ofNat_one_succ n]
  xcnt := by rw [State.nackedOnce, State.storeSlot_xcnt, h.xcnt, BitVec.ofNat_add, BitVec.add_assoc]
  latest := fun _ => by
    have := State.holds_storeSlot (s := { u with xcnt := u.xcnt + 1#32, inputs := es, sseq := u.sseq ^^^ 1#1 }) h.wf
      (u.sseq ^^^ 1#1) hrb
    rwa [State.nackedOnce, State.storeSlot_sseq]
  before := fun hn => by
    have hother : u.sseq ^^^ 1#1 ^^^ 1#1 = u.sseq := (by decide : ∀ p : BitVec 1, p ^^^ 1#1 ^^^ 1#1 = p) _
    have hne : u.sseq ≠ u.sseq ^^^ 1#1 := (by decide : ∀ p : BitVec 1, p ≠ p ^^^ 1#1) _
    rw [State.nackedOnce, State.storeSlot_sseq, hother]
    exact State.Holds.storeSlot_other (s := { u with
      xcnt := u.xcnt + 1#32, inputs := es, sseq := u.sseq ^^^ 1#1 }) (h.latest (by omega)) hne rb

/-- Three exchanges that each brought a wrong EDC leave both slots with the R-block. -/
theorem Nacked.slots {s u : State} {rb : List Byte} {n : Nat} (h : Nacked s rb n u) (hn : 2 ≤ n) (p : BitVec 1) :
    u.Holds p rb := by
  rcases (by decide : ∀ p q : BitVec 1, p = q ∨ p = q ^^^ 1#1) p u.sseq with rfl | rfl
  · exact h.latest (by omega)
  · exact h.before hn

/-- The R-block that answers a wrong EDC while T1XMIT sends to the address of A0. -/
def State.xmitNack (s : State) : List Byte := nackFrame s.haddr (addrSrc s.a0) s.rseq

theorem State.xmitNack_eq (s : State) : s.xmitNack =
    frameOf s.haddr.toNat (s.a0.toNat % 8) (0x81 + s.rseq.toNat * 16) [] := by
  rw [← toNat_addrSrc, frameOf_eq _ _ (pcbR_edc_eq _)]
  rfl

theorem nadDst_nad : ∀ src dst : BitVec 3, nadDst (nad src dst) = dst := by decide

/-- The frames that a T1XMIT sends to its destination all get the same R-block. -/
theorem Nacked.frame_eq {s u : State} {rb : List Byte} {n : Nat} (h : Nacked s rb n u) {out : List Byte}
    (hout : out.getD 0 0#8 = nad s.haddr (addrSrc s.a0)) :
    nackFrame u.haddr (nadDst (frameFields out).nad) u.rseq = s.xmitNack := by
  have hdst : nadDst (frameFields out).nad = addrSrc s.a0 :=
    (congrArg nadDst hout).trans (nadDst_nad _ _)
  rw [hdst, h.rseq, h.frame]
  rfl

/-- T1XMIT at its first call is before any wrong EDC. -/
theorem State.nacked_zero {s : State} (hm : s.MemoryInv) :
    Nacked s s.xmitNack 0 (s.storeSlot s.sseq s.xmitFrame) where
  frame := State.withSession_storeSlot _ _ _
  wf := State.SlotsWf.storeSlot ⟨hm.ls0_wf, hm.ls1_wf⟩ _ _
  rseq := State.storeSlot_rseq _ _ _
  sseq := by rw [State.storeSlot_sseq]; simp
  xcnt := by rw [State.storeSlot_xcnt]; simp
  latest := fun h => absurd h (by omega)
  before := fun h => absurd h (by omega)

/-- T1XMIT ended after three exchanges. -/
theorem Nacked.aborted {s u : State} {rb : List Byte} {rest : List Input} (h : Nacked s rb 3 u) (hw : s.work = none)
    (hin : u.inputs = rest) : u.abortWith .tooManyRetries 0#8 = { s with
      ls0 := u.ls0, ls1 := u.ls1, ls0len := 4#16, ls1len := 4#16
      sseq := s.sseq ^^^ 1#1, xcnt := s.xcnt + 3#32, err := 0x21#8, subErr := 0#8, status := 4#32
      inputs := rest } := by
  have hlen0 : u.ls0len = 4#16 := (h.slots (by omega) 0#1).2
  have hlen1 : u.ls1len = 4#16 := (h.slots (by omega) 1#1).2
  have hframe : u.abortWith .tooManyRetries 0#8 = { s with
      ls0 := u.ls0, ls1 := u.ls1, ls0len := u.ls0len, ls1len := u.ls1len, sseq := u.sseq, rseq := u.rseq
      xcnt := u.xcnt, err := 0x21#8, subErr := 0#8, status := 4#32, work := none, inputs := u.inputs } :=
    congrArg (fun v => State.abortWith v .tooManyRetries 0#8) h.frame
  rw [hframe, hlen0, hlen1, h.sseq, h.rseq, h.xcnt, hin, hw]
  rfl

/-- What the LINE is handed while the command waits, with frames in its slots. -/
theorem Nacked.lineOut {s u : State} {rb : List Byte} {n : Nat} (h : Nacked s rb n u) (r : Nat) (out : List Byte) :
    (u.callExchange .xmit r out).lineOut = some (out, s.bwt) := by
  rw [h.frame]
  rfl

/-- The three exchanges of a T1XMIT that each bring a wrong EDC (43_t1_protocol R205). -/
theorem threeEdcErrors {s : State} {g1 g2 g3 : List Byte} {rest : List Input} (hm : s.MemoryInv) (hw : s.work = none)
    (hmode : s.edcMode = 0#1) (hifs : s.dlen.toNat ≤ s.ifs.toNat) (hlen : s.dlen.toNat ≤ 254)
    (hr : s.cfg.retryBudget = 3) (h1 : t1Parse 0#1 (g1.take 259) = .error .edcError)
    (h2 : t1Parse 0#1 (g2.take 259) = .error .edcError) (h3 : t1Parse 0#1 (g3.take 259) = .error .edcError) :
    (s.inputs = .line (.ok g1) :: .line (.ok g2) :: .line (.ok g3) :: rest →
      ∃ t, exec .t1xmit s = .next t ∧ t.slot 0#1 = s.xmitNack ∧ t.slot 1#1 = s.xmitNack ∧ t = { s with
        ls0 := t.ls0, ls1 := t.ls1, ls0len := 4#16, ls1len := 4#16
        sseq := s.sseq ^^^ 1#1, xcnt := s.xcnt + 3#32, err := 0x21#8, subErr := 0#8, status := 4#32
        inputs := rest }) ∧
    (s.inputs = [] → ∃ t, exec .t1xmit s = .next t ∧ t.lineOut = some (s.xmitFrame, s.bwt)) ∧
    (s.inputs = [.line (.ok g1)] → ∃ t, exec .t1xmit s = .next t ∧ t.lineOut = some (s.xmitNack, s.bwt)) ∧
    (s.inputs = [.line (.ok g1), .line (.ok g2)] →
      ∃ t, exec .t1xmit s = .next t ∧ t.lineOut = some (s.xmitNack, s.bwt)) := by
  have hstart : exec .t1xmit s = .next (State.serve s.inputs
      ((s.storeSlot s.sseq s.xmitFrame).callExchange .xmit 3 s.xmitFrame)) := by
    rw [exec_t1xmit, State.beginXmit_of_tests hmode hifs hlen (by omega), hr]
  have n0 := State.nacked_zero hm
  generalize s.storeSlot s.sseq s.xmitFrame = u at hstart n0
  have hfirst := fun es => State.serve_edcError 1 es h1 (n0.frame_eq (out := s.xmitFrame) rfl)
  have n1 := fun es => n0.once rfl es
  have hsecond := fun es es' => State.serve_edcError 0 es' h2 ((n1 es).frame_eq (out := s.xmitNack) rfl)
  have n2 := fun es es' => (n1 es).once rfl es'
  refine ⟨fun hin => ?_, fun hin => ?_, fun hin => ?_, fun hin => ?_⟩
  · have n3 := (n2 (.line (.ok g2) :: .line (.ok g3) :: rest) (.line (.ok g3) :: rest)).once rfl rest
    have hthird := State.serve_edcError_last rest h3
      ((n2 (.line (.ok g2) :: .line (.ok g3) :: rest) (.line (.ok g3) :: rest)).frame_eq (out := s.xmitNack) rfl)
    rw [hin, hfirst, hsecond, hthird] at hstart
    obtain ⟨h0, hlen0⟩ := n3.slots (by omega) 0#1
    obtain ⟨h1, hlen1⟩ := n3.slots (by omega) 1#1
    exact ⟨_, hstart, h0, h1, n3.aborted hw (State.storeSlot_inputs _ _ _)⟩
  · rw [hin, State.serve_nil] at hstart
    exact ⟨_, hstart, n0.lineOut _ _⟩
  · rw [hin, hfirst, State.serve_nil] at hstart
    exact ⟨_, hstart, (n1 _).lineOut _ _⟩
  · rw [hin, hfirst, hsecond, State.serve_nil] at hstart
    exact ⟨_, hstart, (n2 _ _).lineOut _ _⟩

/-- Settles O45: three wrong EDC octets by the three exchanges, the bounds by the calls still to come. -/
theorem retryBound : Obligations.RetryBound := by
  unfold Obligations.RetryBound
  refine ⟨fun s g1 g2 g3 rest hm hw hmode hifs hlen hr h1 h2 h3 => ?_, fun s t hw h => ?_, fun s t hw h => ?_⟩
  · intro out rb
    have hout : s.xmitFrame = out := s.xmitFrame_eq
    have hrb : s.xmitNack = rb := s.xmitNack_eq
    rw [← hout, ← hrb]
    exact threeEdcErrors hm hw hmode hifs hlen hr h1 h2 h3
  · exact xcnt_of_exec (.inr rfl) hw h
  · rw [Nat.mul_assoc]
    exact xcnt_of_exec (.inl rfl) hw h

end Sys2Proof.Machine
end

section
/-! SUPPORT. internal_transmit between two `exchange` calls and as the recursion of the spec: both do with an answer
what `State.react` says (43_t1_protocol R192 to R199). -/

namespace Sys2Proof.Machine

/-! ### One answer -/

/-- What internal_transmit does with one answer: it calls itself with a frame to send, returns a block, or raises. -/
inductive Reaction where
  | again (s : State) (out : List Byte)
  | returns (s : State) (b : Block)
  | raises (s : State) (e : Err)

/-- Arm unknown (43_t1_protocol R199). -/
def State.reactUnknown (s : State) (out : List Byte) : Reaction :=
  match s.cfg.unknownReply with
  | .retrySame => .again s out
  | .fail => .raises s .unexpectedBlock

/-- The arm of an accepted frame (43_t1_protocol R192 to R195, R197 to R199). -/
def State.reactTo (s : State) (out : List Byte) (b : Block) : Reaction :=
  if blockType b.pcb = .I then .returns { s with rseq := s.rseq ^^^ 1#1 } b
  else if blockType b.pcb = .R then
    if s.slotLen (b.pcb.extractLsb' 4 1) = 0#16 then .raises s .resendSlotEmpty
    else .again s (s.slot (b.pcb.extractLsb' 4 1))
  else if pcbSCode b.pcb = s.cfg.scode.wtxRequest then .again s (wtxFrame s (nadDst (out.getD 0 0#8)) b.data)
  else if pcbSCode b.pcb = s.cfg.scode.resynchResponse ∧ out.getD 1 0#8 = pcbS s.cfg.scode.resynchRequest then
    .returns s b
  else if pcbSCode b.pcb = s.cfg.scode.ifsResponse ∧ out.getD 1 0#8 = pcbS s.cfg.scode.ifsRequest then .returns s b
  else s.reactUnknown out

/-- What internal_transmit does with the answer to the frame `out`, its exchange already counted in `s`. -/
def State.react (s : State) (out : List Byte) : Answer → Reaction
  | .fail => .raises s .transportError
  | .ok g =>
    match t1Parse 0#1 (g.take fbCap) with
    | .error .edcError =>
      let rb := nackFrame s.haddr (nadDst (out.getD 0 0#8)) s.rseq
      .again (({ s with sseq := s.sseq ^^^ 1#1 } : State).storeSlot (s.sseq ^^^ 1#1) rb) rb
    | .error e => .raises s e
    | .ok b => s.reactTo out b

section
variable (s : State) (out : List Byte) {g : List Byte}

theorem State.react_lengthMismatch (h : t1Parse 0#1 (g.take fbCap) = .error .lengthMismatch) :
    s.react out (.ok g) = .raises s .lengthMismatch := by
  simp only [State.react, h]

theorem State.react_edcError (h : t1Parse 0#1 (g.take fbCap) = .error .edcError) : s.react out (.ok g) =
    .again (({ s with sseq := s.sseq ^^^ 1#1 } : State).storeSlot (s.sseq ^^^ 1#1)
      (nackFrame s.haddr (nadDst (out.getD 0 0#8)) s.rseq)) (nackFrame s.haddr (nadDst (out.getD 0 0#8)) s.rseq) := by
  simp only [State.react, h]

theorem State.react_block {b : Block} (h : t1Parse 0#1 (g.take fbCap) = .ok b) :
    s.react out (.ok g) = s.reactTo out b := by
  simp only [State.react, h]

end

/-- The recursion goes on as the reaction says. -/
def Reaction.recurse (r : Nat) (as : List Answer) : Reaction → State × Transmitted × List Answer
  | .again s out => internalTransmit r out as s
  | .returns s b => (s, .block b, as)
  | .raises s e => (s, .raised e, as)

/-- The command goes on as the reaction says. -/
def Reaction.resume (j : Job) (r : Nat) : Reaction → State
  | .again s out => s.transmit j r out
  | .returns s b => s.returnBlock j b
  | .raises s e => s.failJob j e

/-- The same reaction with the events `es` to come. -/
def Reaction.withInputs (es : List Input) : Reaction → Reaction
  | .again s out => .again { s with inputs := es } out
  | .returns s b => .returns { s with inputs := es } b
  | .raises s e => .raises { s with inputs := es } e

/-- The state a reaction leaves. -/
def Reaction.state : Reaction → State
  | .again s _ => s
  | .returns s _ => s
  | .raises s _ => s

/-- internal_transmit as the spec writes it, one answer at a time. -/
theorem internalTransmit_cons (r : Nat) (out : List Byte) (a : Answer) (as : List Answer) (s : State) :
    internalTransmit (r + 1) out (a :: as) s =
      (({ s with xcnt := s.xcnt + 1 } : State).react out a).recurse r as := by
  cases a with
  | fail => rfl
  | ok g =>
    rw [internalTransmit, State.react]
    cases ht : t1Parse 0#1 (g.take fbCap) with
    | error e =>
      rcases t1Parse_error ht with rfl | rfl <;> rfl
    | ok b =>
      simp only [State.reactTo]
      split_ifs
      · rfl
      · rfl
      · rfl
      · rfl
      · rfl
      · rfl
      · cases hp : s.cfg.unknownReply <;> simp only [State.reactUnknown, hp, Reaction.recurse]

/-! ### The arms of the model -/

/-- Every octet is an I-block, an R-block or an S-block PCB (30_encoding R95). -/
theorem pcbOctet_cases (p : Byte) : (∃ ns more ignored, p = pcbOctetI ns more ignored) ∨
    (∃ ignored nr err, p = pcbOctetR ignored nr err) ∨ ∃ code, p = pcbOctetS code := by
  obtain ⟨hI, hR, hS⟩ := pcbOctet_of_fields p
  by_cases h7 : p.extractLsb' 7 1 = 0#1
  · exact .inl ⟨_, _, _, (hI h7).symm⟩
  · by_cases h6 : p.extractLsb' 6 1 = 0#1
    · exact .inr (.inl ⟨_, _, _, (hR h7 h6).symm⟩)
    · exact .inr (.inr ⟨_, (hS h7 h6).symm⟩)

theorem blockType_pcbOctetI : ∀ (ns more : BitVec 1) (ignored : BitVec 5),
    blockType (pcbOctetI ns more ignored) = .I := by decide

theorem blockType_pcbOctetR : ∀ (ignored nr : BitVec 1) (err : BitVec 4),
    blockType (pcbOctetR ignored nr err) = .R := by decide

/-- What the arms leave does not depend on STATUS and the working storage: they write both. -/
theorem State.failJob_running (s : State) (st : Word) (x : Option Work) (j : Job) (e : Err) :
    ({ s with status := st, work := x } : State).failJob j e = s.failJob j e := by
  cases j with
  | xmit => rfl
  | opening a ph =>
    rw [State.failJob_opening, State.failJob_opening]
    generalize e.code = last
    show State.tryOpen (s.cfg.openAttempts - a) last _ = _
    induction s.cfg.openAttempts - a generalizing last with
    | zero => rfl
    | succ k ih =>
      unfold State.tryOpen
      split
      · exact ih _
      · rfl

theorem State.transmit_running (s : State) (st : Word) (x : Option Work) (j : Job) (r : Nat) (out : List Byte) :
    ({ s with status := st, work := x } : State).transmit j r out = s.transmit j r out := by
  unfold State.transmit
  split
  · exact s.failJob_running st x j _
  · rfl

theorem State.returnBlock_running (s : State) (st : Word) (x : Option Work) (j : Job) (b : Block) :
    ({ s with status := st, work := x } : State).returnBlock j b = s.returnBlock j b := by
  match j with
  | .xmit =>
    show State.endXmit _ b = s.endXmit b
    rw [State.endXmit_eq, State.endXmit_eq]
  | .opening a .resynch =>
    show State.endResynch _ a b = s.endResynch a b
    rw [State.endResynch_eq, State.endResynch_eq]
    by_cases hc : blockType b.pcb = .S ∧ pcbSCode b.pcb = s.cfg.scode.resynchResponse
    · rw [if_pos hc, if_pos hc]
      exact State.transmit_running { s with sseq := 0#1, rseq := 0#1 } st x _ _ _
    · rw [if_neg hc, if_neg hc]
      exact s.failJob_running st x _ _
  | .opening a .ifs =>
    show State.endIfs _ a b = s.endIfs a b
    unfold State.endIfs
    by_cases hc : blockType b.pcb = .S ∧ pcbSCode b.pcb = s.cfg.scode.ifsResponse ∧ b.len = 1#8
    · rw [if_pos hc, if_pos hc]
      rfl
    · rw [if_neg hc, if_neg hc]
      exact s.failJob_running st x _ _

theorem State.armUnknown_eq (s : State) (st : Word) (j : Job) (r : Nat) (out rx : List Byte) (x : Option Work) :
    ({ s with status := st, work := x } : State).armUnknown ⟨j, r + 1, out, rx⟩ =
      (s.reactUnknown out).resume j r := by
  unfold State.armUnknown State.reactUnknown
  cases s.cfg.unknownReply with
  | retrySame => exact s.transmit_running st x j r out
  | fail => exact s.failJob_running st x j _

theorem State.reactTo_iBlock (s : State) (out : List Byte) {b : Block} {ns more : BitVec 1} {ignored : BitVec 5}
    (hb : b.pcb = pcbOctetI ns more ignored) : s.reactTo out b = .returns { s with rseq := s.rseq ^^^ 1#1 } b :=
  if_pos (hb ▸ blockType_pcbOctetI ns more ignored)

theorem State.reactTo_rBlock (s : State) (out : List Byte) {b : Block} {ignored nr : BitVec 1} {err : BitVec 4}
    (hb : b.pcb = pcbOctetR ignored nr err) : s.reactTo out b =
      if s.slotLen nr = 0#16 then .raises s .resendSlotEmpty else .again s (s.slot nr) := by
  obtain ⟨-, -, -, hnr, -⟩ := pcbOctetR_fields ignored nr err
  rw [State.reactTo, hb, blockType_pcbOctetR, if_neg nofun, if_pos rfl, hnr]

/-- The nine codes, each by what it decodes to (30_encoding R100). -/
theorem code_iff_decodes {sc : SCode} (h : sc.WellFormed) (code : BitVec 6) :
    (code = sc.wtxRequest ↔ decodeSCode sc code = .ok .pcbWtxRequest) ∧
      (code = sc.resynchResponse ↔ decodeSCode sc code = .ok .pcbResynchResponse) ∧
      (code = sc.ifsResponse ↔ decodeSCode sc code = .ok .pcbIfsResponse) := by
  simp [decodeSCode_ok_iff h, scodeTable]

/-- The reaction to an S-block, by what its code decodes to (43_t1_protocol R192). -/
theorem State.reactTo_sBlock {s : State} (h : s.cfg.scode.WellFormed) (out : List Byte) {b : Block} {code : BitVec 6}
    (hb : b.pcb = pcbOctetS code) : s.reactTo out b =
      if decodeSCode s.cfg.scode code = .ok .pcbWtxRequest then
        .again s (wtxFrame s (nadDst (out.getD 0 0#8)) b.data)
      else if decodeSCode s.cfg.scode code = .ok .pcbResynchResponse ∧
          out.getD 1 0#8 = pcbS s.cfg.scode.resynchRequest then .returns s b
      else if decodeSCode s.cfg.scode code = .ok .pcbIfsResponse ∧
          out.getD 1 0#8 = pcbS s.cfg.scode.ifsRequest then .returns s b
      else s.reactUnknown out := by
  have hcode : pcbSCode b.pcb = code := hb ▸ pcbSCode_pcbS code
  have htype : blockType b.pcb = .S := hb ▸ blockType_pcbS code
  obtain ⟨hwtx, hresynch, hifs⟩ := code_iff_decodes h code
  rw [State.reactTo, htype, if_neg nofun, if_neg nofun, hcode]
  simp only [hwtx, hresynch, hifs]

theorem received_eq_of_pcb {w : Work} {b : Block} (hb : b = frameFields w.rx) {pcb : Byte} (hp : b.pcb = pcb) :
    received w pcb = b := by
  rw [← hp, hb]
  rfl

/-- The arm of an S-block on a command that waits with `r + 1` retries (43_t1_protocol R195, R197 to R199). -/
theorem State.reply_sBlock {s : State} (h : s.cfg.scode.WellFormed) {j : Job} {r : Nat} {out rx : List Byte}
    {code : BitVec 6} {i : Instr} (hlen : (frameFields rx).data.length ≤ lenMax)
    (hcode : (frameFields rx).pcb = pcbOctetS code) (hi : decodeSCode s.cfg.scode code = .ok i)
    (hw : s.work = some ⟨j, r + 1, out, rx⟩) :
    s.reply i = (s.reactTo out (frameFields rx)).resume j r := by
  have hmem := mem_scodeTable_of_decodeSCode hi
  have hunknown : s.armUnknown ⟨j, r + 1, out, rx⟩ = (s.reactUnknown out).resume j r := s.armUnknown_eq s.status ..
  rw [State.reactTo_sBlock h _ hcode, hi]
  cases i
  case pcbWtxRequest =>
    rw [if_pos rfl]
    exact State.reply_pcbWtxRequest hw hlen
  case pcbResynchResponse =>
    have hsame : code = s.cfg.scode.resynchResponse := by simpa [scodeTable] using hmem
    have hreply : s.reply .pcbResynchResponse = if out.getD 1 0#8 = pcbS s.cfg.scode.resynchRequest then
        s.returnBlock j (frameFields rx) else (s.reactUnknown out).resume j r := by
      rw [State.reply_pcbResynchResponse hw, received_eq_of_pcb (w := ⟨j, r + 1, out, rx⟩) rfl (hsame ▸ hcode),
        hunknown]
      rfl
    rw [if_neg nofun, hreply]
    by_cases hout : out.getD 1 0#8 = pcbS s.cfg.scode.resynchRequest
    · rw [if_pos hout, if_pos ⟨rfl, hout⟩]
      rfl
    · rw [if_neg hout, if_neg fun hc => hout hc.2, if_neg nofun]
  case pcbIfsResponse =>
    have hsame : code = s.cfg.scode.ifsResponse := by simpa [scodeTable] using hmem
    have hreply : s.reply .pcbIfsResponse = if out.getD 1 0#8 = pcbS s.cfg.scode.ifsRequest then
        s.returnBlock j (frameFields rx) else (s.reactUnknown out).resume j r := by
      rw [State.reply_pcbIfsResponse hw, received_eq_of_pcb (w := ⟨j, r + 1, out, rx⟩) rfl (hsame ▸ hcode), hunknown]
      rfl
    rw [if_neg nofun, if_neg nofun, hreply]
    by_cases hout : out.getD 1 0#8 = pcbS s.cfg.scode.ifsRequest
    · rw [if_pos hout, if_pos ⟨rfl, hout⟩]
      rfl
    · rw [if_neg hout, if_neg fun hc => hout hc.2]
  case pcbResynchRequest | pcbIfsRequest | pcbAbortRequest | pcbAbortResponse | pcbWtxResponse
    | pcbVppStateErrorResponse =>
    rw [if_neg nofun, if_neg nofun, if_neg nofun, ← hunknown]
    exact State.whileWaiting_some hw _
  all_goals simp [scodeTable] at hmem

/-- How the command goes on does not depend on STATUS and the working storage. -/
theorem State.resume_reactTo_running (s : State) (st : Word) (x : Option Work) (j : Job) (r : Nat) (out : List Byte)
    (b : Block) :
    (({ s with status := st, work := x } : State).reactTo out b).resume j r = (s.reactTo out b).resume j r := by
  have hslot : ∀ p, State.slotLen { s with status := st, work := x } p = s.slotLen p := fun _ => rfl
  simp only [State.reactTo, hslot]
  split_ifs
  · exact State.returnBlock_running { s with rseq := s.rseq ^^^ 1#1 } st x j b
  · exact s.failJob_running st x j _
  · exact s.transmit_running st x j r (s.slot _)
  · exact s.transmit_running st x j r (wtxFrame s _ _)
  · exact s.returnBlock_running st x j b
  · exact s.returnBlock_running st x j b
  · unfold State.reactUnknown
    cases s.cfg.unknownReply with
    | retrySame => exact s.transmit_running st x j r out
    | fail => exact s.failJob_running st x j _

/-- An S-block of no known code goes to arm unknown (43_t1_protocol R199). -/
theorem State.answer_undecoded {s : State} {w : Work} (hw : s.work = some w) {g : List Byte} {b : Block}
    {e : DecodeError} (hb : t1Parse 0#1 (g.take fbCap) = .ok b) (he : decodePcb s.cfg.scode b.pcb = .error e) :
    s.answer (.ok g) = ({ s with work := some { w with rx := g.take fbCap } } : State).armUnknown
      { w with rx := g.take fbCap } := by
  simp [State.answer, State.receive, hw, hb, he]

/-- What the engine does with an accepted frame, arm by arm (43_t1_protocol R192). -/
theorem State.answer_block_reacts {s : State} (h : s.cfg.scode.WellFormed) {j : Job} {r : Nat} {out : List Byte}
    {g : List Byte} {b : Block} (hw : s.work = some ⟨j, r + 1, out, []⟩) (hb : t1Parse 0#1 (g.take fbCap) = .ok b) :
    s.answer (.ok g) = (s.reactTo out b).resume j r := by
  have hfields := frameFields_of_parse hb
  have hlen := length_data_of_goodFrame hb
  subst hfields
  obtain ⟨t, ht⟩ : ∃ t, t = ({ s with work := some ⟨j, r + 1, out, g.take fbCap⟩ } : State) := ⟨_, rfl⟩
  have hrun : (s.reactTo out (frameFields (g.take fbCap))).resume j r =
      (t.reactTo out (frameFields (g.take fbCap))).resume j r := by
    rw [ht]
    exact (s.resume_reactTo_running s.status _ j r out _).symm
  have hwork : t.work = some ⟨j, r + 1, out, g.take fbCap⟩ := by rw [ht]
  have hsc : t.cfg.scode.WellFormed := by rw [ht]; exact h
  have hblock : ∀ i, decodePcb t.cfg.scode (frameFields (g.take fbCap)).pcb = .ok i →
      s.answer (.ok g) = t.reply i := fun i hi => by
    rw [ht] at hi ⊢
    exact State.answer_block hw hb hi
  rw [hrun]
  rcases pcbOctet_cases (frameFields (g.take fbCap)).pcb with ⟨ns, more, ignored, hp⟩ | ⟨ignored, nr, err, hp⟩ |
    ⟨code, hp⟩
  · have hreceived := received_eq_of_pcb (w := ⟨j, r + 1, out, g.take fbCap⟩) rfl hp
    rw [hblock _ (hp ▸ decodePcb_pcbOctetI ..), State.reactTo_iBlock _ _ hp]
    simp only [State.reply, State.whileWaiting_some hwork, State.armI, hreceived, Reaction.resume]
  · rw [hblock _ (hp ▸ decodePcb_pcbOctetR ..), State.reply_pcbR hwork, State.reactTo_rBlock _ _ hp]
    split <;> rfl
  · cases hd : decodeSCode t.cfg.scode code with
    | ok i =>
      rw [hblock i (by rw [hp, decodePcb_pcbOctetS, hd])]
      exact State.reply_sBlock hsc hlen hp hd hwork
    | error e =>
      have hunknown : s.answer (.ok g) = (t.reactUnknown out).resume j r := by
        rw [ht] at hd ⊢
        rw [State.answer_undecoded hw hb (by rw [hp, decodePcb_pcbOctetS, hd])]
        exact State.armUnknown_eq { s with work := some ⟨j, r + 1, out, g.take fbCap⟩ } s.status ..
      rw [hunknown, State.reactTo_sBlock hsc _ hp, hd, if_neg nofun, if_neg nofun, if_neg nofun]

/-- A waiting engine does with an answer what `State.react` says (43_t1_protocol R191 to R199). -/
theorem State.answer_reacts {s : State} (h : s.cfg.scode.WellFormed) {j : Job} {r : Nat} {out : List Byte}
    (a : Answer) (hw : s.work = some ⟨j, r + 1, out, []⟩) : s.answer a = (s.react out a).resume j r := by
  cases a with
  | fail => exact State.answer_fail hw
  | ok g =>
    rw [State.react]
    cases ht : t1Parse 0#1 (g.take fbCap) with
    | ok b => exact State.answer_block_reacts h hw ht
    | error e =>
      rcases t1Parse_error ht with rfl | rfl
      · rw [State.answer_lengthMismatch hw ht]
        exact s.failJob_running s.status _ j _
      · rw [State.answer_edcError hw ht, State.armEdc_eq, State.nacked_running (w := ⟨j, r + 1, out, []⟩)]
        exact State.transmit_running (s.nacked ⟨j, r + 1, out, []⟩) _ _ j r _

end Sys2Proof.Machine
end

section
/-! SUPPORT. T1XMIT and T1OPEN are internal_transmit as the recursion of the spec over the answers that stand first
among the events (43_t1_protocol R200 to R204). -/

namespace Sys2Proof.Machine

/-! ### Reactions -/

theorem State.storeSlot_withInputs (s : State) (p : BitVec 1) (raw : List Byte) (es : List Input) :
    ({ s with inputs := es } : State).storeSlot p raw = { s.storeSlot p raw with inputs := es } := by
  unfold State.storeSlot
  split <;> rfl

/-- A reaction reads and writes neither the events to come nor the configuration nor the working storage. -/
theorem State.react_inputs (s : State) (es : List Input) (out : List Byte) (a : Answer) :
    ({ s with inputs := es } : State).react out a = (s.react out a).withInputs es := by
  cases a with
  | fail => rfl
  | ok g =>
    cases ht : t1Parse 0#1 (g.take fbCap) with
    | error e =>
      rcases t1Parse_error ht with rfl | rfl
      · rw [State.react_lengthMismatch _ _ ht, State.react_lengthMismatch _ _ ht]
        rfl
      · rw [State.react_edcError _ _ ht, State.react_edcError _ _ ht]
        exact congrArg (Reaction.again · _) (State.storeSlot_withInputs { s with sseq := s.sseq ^^^ 1#1 } _ _ es)
    | ok b =>
      rw [State.react_block _ _ ht, State.react_block _ _ ht]
      have hslot : ∀ p, State.slotLen { s with inputs := es } p = s.slotLen p := fun _ => rfl
      simp only [State.reactTo, hslot]
      split_ifs
      · rfl
      · rfl
      · rfl
      · rfl
      · rfl
      · rfl
      · unfold State.reactUnknown
        cases s.cfg.unknownReply <;> rfl

theorem State.resume_react_running (s : State) (st : Word) (x : Option Work) (j : Job) (r : Nat) (out : List Byte)
    (a : Answer) : (({ s with status := st, work := x } : State).react out a).resume j r =
      (s.react out a).resume j r := by
  cases a with
  | fail => exact s.failJob_running st x j _
  | ok g =>
    cases ht : t1Parse 0#1 (g.take fbCap) with
    | error e =>
      rcases t1Parse_error ht with rfl | rfl
      · rw [State.react_lengthMismatch _ _ ht, State.react_lengthMismatch _ _ ht]
        exact s.failJob_running st x j _
      · rw [State.react_edcError _ _ ht, State.react_edcError _ _ ht]
        exact (congrArg (fun t => State.transmit t j r _)
          (State.storeSlot_running { s with sseq := s.sseq ^^^ 1#1 } _ _ st x)).trans
          (State.transmit_running _ st x j r _)
    | ok b =>
      rw [State.react_block _ _ ht, State.react_block _ _ ht]
      exact s.resume_reactTo_running st x j r out b

theorem State.react_keeps (s : State) (out : List Byte) (a : Answer) :
    (s.react out a).state.cfg = s.cfg ∧ (s.react out a).state.work = s.work := by
  cases a with
  | fail => exact ⟨rfl, rfl⟩
  | ok g =>
    cases ht : t1Parse 0#1 (g.take fbCap) with
    | error e =>
      rcases t1Parse_error ht with rfl | rfl
      · rw [State.react_lengthMismatch _ _ ht]
        exact ⟨rfl, rfl⟩
      · rw [State.react_edcError _ _ ht]
        exact ⟨State.storeSlot_cfg .., State.storeSlot_work ..⟩
    | ok b =>
      rw [State.react_block _ _ ht]
      simp only [State.reactTo, State.reactUnknown]
      split_ifs
      · exact ⟨rfl, rfl⟩
      · exact ⟨rfl, rfl⟩
      · exact ⟨rfl, rfl⟩
      · exact ⟨rfl, rfl⟩
      · exact ⟨rfl, rfl⟩
      · exact ⟨rfl, rfl⟩
      · cases s.cfg.unknownReply <;> exact ⟨rfl, rfl⟩

/-- internal_transmit changes neither the configuration nor the working storage. -/
theorem internalTransmit_keeps : ∀ (r : Nat) (out : List Byte) (as : List Answer) (s : State),
    (internalTransmit r out as s).1.cfg = s.cfg ∧ (internalTransmit r out as s).1.work = s.work
  | 0, _, _, _ => by simp only [internalTransmit, and_self]
  | _ + 1, _, [], _ => by simp only [internalTransmit, and_self]
  | r + 1, out, a :: as, s => by
    have hkeeps := State.react_keeps { s with xcnt := s.xcnt + 1 } out a
    rw [internalTransmit_cons]
    cases hρ : ({ s with xcnt := s.xcnt + 1 } : State).react out a with
    | again s' out' =>
      rw [hρ] at hkeeps
      obtain ⟨hcfg, hwork⟩ := internalTransmit_keeps r out' as s'
      exact ⟨hcfg.trans hkeeps.1, hwork.trans hkeeps.2⟩
    | returns s' b => rw [hρ] at hkeeps; exact hkeeps
    | raises s' e => rw [hρ] at hkeeps; exact hkeeps

/-! ### internal_transmit in the engine -/

/-- How the engine goes on after internal_transmit ended as it did: it serves the answers not used, or waits. -/
def resumeAfter (j : Job) (rest : List Input) : State × Transmitted × List Answer → State
  | (s, .block b, as) =>
    State.serve (eventsOf as rest) (({ s with inputs := eventsOf as rest } : State).returnBlock j b)
  | (s, .raised e, as) =>
    State.serve (eventsOf as rest) (({ s with inputs := eventsOf as rest } : State).failJob j e)
  | (s, .blocked out r, as) =>
    { s with status := statusBusy, work := some ⟨j, r, out, []⟩, inputs := eventsOf as rest }

/-- The engine that makes a call and serves the answers runs internal_transmit (43_t1_protocol R192). -/
theorem serve_transmit {rest : List Input} (hrest : ∀ t, State.serve rest t = t) (j : Job) :
    ∀ (r : Nat) (out : List Byte) (as : List Answer) (s : State), s.cfg.scode.WellFormed →
      State.serve (eventsOf as rest) (({ s with inputs := eventsOf as rest } : State).transmit j r out) =
        resumeAfter j rest (internalTransmit r out as s)
  | 0, out, as, s, _ => by
    rw [State.transmit_zero]
    simp only [internalTransmit, resumeAfter]
  | r + 1, out, [], s, _ => by
    rw [State.transmit_pos _ _ (by omega)]
    exact hrest _
  | r + 1, out, a :: as, s, h => by
    rw [State.transmit_pos _ _ (by omega), internalTransmit_cons]
    show State.serve (.line a :: eventsOf as rest) _ = _
    rw [State.serve_waiting rfl, State.answer_reacts (j := j) (r := r) (out := out) (by exact h) a rfl]
    have hreact := State.resume_react_running { s with xcnt := s.xcnt + 1, inputs := eventsOf as rest } statusBusy
      (some ⟨j, r + 1, out, []⟩) j r out a
    rw [State.react_inputs { s with xcnt := s.xcnt + 1 }] at hreact
    refine (congrArg _ hreact).trans ?_
    have hkeeps := State.react_keeps { s with xcnt := s.xcnt + 1 } out a
    cases hρ : ({ s with xcnt := s.xcnt + 1 } : State).react out a with
    | again s' out' =>
      rw [hρ] at hkeeps
      exact serve_transmit hrest j r out' as s' (hkeeps.1 ▸ h)
    | returns s' b => rfl
    | raises s' e => rfl

/-! ### The answers that stand first -/

/-- What stands after them is no answer. -/
theorem serve_answersFirst (es : List Input) (t : State) : State.serve (answersFirst es).2 t = t := by
  induction es with
  | nil => exact State.serve_nil t
  | cons e es ih =>
    cases e with
    | line a => exact ih
    | host a => exact State.serve_host t a es
    | hardReset => exact State.serve_hardReset t es

theorem eventsOf_answersFirst (es : List Input) : eventsOf (answersFirst es).1 (answersFirst es).2 = es := by
  induction es with
  | nil => rfl
  | cons e es ih =>
    cases e with
    | line a => exact congrArg (Input.line a :: ·) ih
    | host a => rfl
    | hardReset => rfl

/-- The engine that makes a call and serves its own events. -/
theorem serve_inputs_transmit {s : State} (j : Job) (r : Nat) (out : List Byte) (h : s.cfg.scode.WellFormed) :
    State.serve s.inputs (s.transmit j r out) =
      resumeAfter j (answersFirst s.inputs).2 (internalTransmit r out (answersFirst s.inputs).1 s) := by
  rw [← serve_transmit (serve_answersFirst s.inputs) j r out _ s h, eventsOf_answersFirst]

/-! ### T1XMIT -/

/-- T1XMIT after internal_transmit (43_t1_protocol R202 to R204). -/
theorem resumeAfter_xmit (rest : List Input) {x : State × Transmitted × List Answer} (hw : x.1.work = none) :
    resumeAfter .xmit rest x = xmitAfter rest x := by
  obtain ⟨s, tr, as⟩ := x
  cases tr with
  | block b =>
    show State.serve _ (State.endXmit _ b) = _
    rw [State.endXmit_eq, State.serve_idle rfl, ← show s.work = none from hw]
    rfl
  | raised e =>
    show State.serve _ (State.abortWith _ e 0#8) = _
    rw [State.serve_idle rfl, State.abortWith, ← show s.work = none from hw]
    rfl
  | blocked out r => rfl

/-- Settles O37: the three tests, then the recursion. -/
theorem t1xmitFollowsRecursion : Obligations.T1xmitFollowsRecursion := by
  unfold Obligations.T1xmitFollowsRecursion
  intro s hsc hw out
  have hout : s.xmitFrame = out := s.xmitFrame_eq
  have hrefused : ∀ e, State.serve s.inputs (s.raise e) = raised s e.code := fun e =>
    State.serve_idle (s := s.raise e) hw _
  rw [exec_t1xmit]
  rcases s.beginXmit_cases with ⟨hifs, heq⟩ | ⟨hifs, ⟨hmode, heq⟩ | ⟨hmode, ⟨hlen, heq⟩ | ⟨hlen, heq⟩⟩⟩ <;> rw [heq]
  · rw [if_pos hifs, hrefused]
    rfl
  · rw [if_neg (Nat.not_lt.2 hifs), if_pos hmode, hrefused]
    rfl
  · rw [if_neg (Nat.not_lt.2 hifs), if_neg hmode, if_pos (show 254 < _ from hlen), hrefused]
    rfl
  · rw [if_neg (Nat.not_lt.2 hifs), if_neg hmode, if_neg (Nat.not_lt.2 (show _ ≤ 254 from hlen)), hout]
    have hinputs : (s.storeSlot s.sseq out).inputs = s.inputs := State.storeSlot_inputs ..
    have hwork : (s.storeSlot s.sseq out).work = none := (State.storeSlot_work ..).trans hw
    have hsc' : (s.storeSlot s.sseq out).cfg.scode.WellFormed := by rw [State.storeSlot_cfg]; exact hsc
    generalize s.storeSlot s.sseq out = u at hinputs hwork hsc'
    rw [← hinputs, serve_inputs_transmit .xmit _ _ hsc', resumeAfter_xmit _ ((internalTransmit_keeps ..).2.trans hwork)]

/-! ### T1OPEN -/

/-- An attempt of T1OPEN is a run of internal_transmit, whatever the budget (43_t1_protocol R200, R201). -/
theorem State.tryOpen_eq_transmit {s : State} {left : Nat} (h : left + 1 ≤ s.cfg.openAttempts) (last : BitVec 8) :
    s.tryOpen (left + 1) last =
      s.transmit (.opening (s.cfg.openAttempts - left) .resynch) s.cfg.retryBudget s.resynchFrame := by
  rw [State.tryOpen]
  by_cases hb : s.cfg.retryBudget = 0
  · rw [if_pos hb, hb, State.transmit_zero, State.failJob_opening, Nat.sub_sub_self (by omega)]
  · rw [if_neg hb, State.transmit_pos _ _ hb]

/-- The state that the answer to the RESYNCH_REQUEST leaves (43_t1_protocol R200). -/
def State.resynched (s : State) : State := { s with sseq := 0#1, rseq := 0#1 }

/-- The end of the IFS half without error (43_t1_protocol R200). -/
theorem serve_endIfs {s : State} (hw : s.work = none) (es : List Input) (a : Nat) (b : Block) :
    State.serve es (({ s with inputs := es } : State).endIfs a b) =
      if blockType b.pcb = .S ∧ pcbSCode b.pcb = s.cfg.scode.ifsResponse ∧ b.len = 1#8 then
        { s with ifs := b.data.getD 0 0#8, status := 2#32, inputs := es }
      else State.serve es (({ s with inputs := es } : State).failJob (.opening a .ifs) .unexpectedBlock) := by
  unfold State.endIfs
  by_cases hc : blockType b.pcb = .S ∧ pcbSCode b.pcb = s.cfg.scode.ifsResponse ∧ b.len = 1#8
  · rw [if_pos hc, if_pos hc, State.serve_idle rfl, ifsOfOctet_eq, ← hw]
    rfl
  · rw [if_neg hc, if_neg hc]

/-- The attempts of T1OPEN in the engine are those of the spec (43_t1_protocol R200, R201). -/
theorem serve_attempts {rest : List Input} (hrest : ∀ t, State.serve rest t = t) :
    ∀ (left : Nat) (last : BitVec 8) (as : List Answer) (s : State), s.cfg.scode.WellFormed → s.work = none →
      left ≤ s.cfg.openAttempts →
      State.serve (eventsOf as rest) (({ s with inputs := eventsOf as rest } : State).tryOpen left last) =
        openAttemptsFrom rest left last as s
  | 0, last, as, s, _, hw, _ => by
    rw [State.tryOpen, State.serve_idle rfl, openAttemptsFrom, State.abortWith, ← hw]
    rfl
  | left + 1, last, as, s, hsc, hw, hleft => by
    have hnext : ∀ (u : State) (ph : Phase) (e : Err) (as' : List Answer), u.cfg = s.cfg → u.work = none →
        State.serve (eventsOf as' rest) (({ u with inputs := eventsOf as' rest } : State).failJob
          (.opening (s.cfg.openAttempts - left) ph) e) = openAttemptsFrom rest left e.code as' u :=
      fun u ph e as' hc hwork => by
        have hsub : u.cfg.openAttempts - (s.cfg.openAttempts - left) = left := by rw [hc]; omega
        rw [State.failJob_opening]
        show State.serve _ (State.tryOpen (u.cfg.openAttempts - _) _ _) = _
        rw [hsub]
        exact serve_attempts hrest left e.code as' u (hc ▸ hsc) hwork (hc ▸ by omega)
    rw [State.tryOpen_eq_transmit (s := { s with inputs := eventsOf as rest }) hleft]
    refine (serve_transmit hrest (.opening (s.cfg.openAttempts - left) .resynch) s.cfg.retryBudget s.resynchFrame
      as s hsc).trans ?_
    rw [openAttemptsFrom, ← State.resynchFrame_eq]
    obtain ⟨hcfg, hwork⟩ := internalTransmit_keeps s.cfg.retryBudget s.resynchFrame as s
    generalize internalTransmit s.cfg.retryBudget s.resynchFrame as s = x at hcfg hwork
    obtain ⟨s1, tr, as1⟩ := x
    have hwork := hwork.trans hw
    cases tr with
    | raised e => exact hnext s1 _ e as1 hcfg hwork
    | blocked out r => rfl
    | block b =>
      show State.serve _ (State.endResynch _ _ b) = _
      rw [State.endResynch_eq]
      by_cases hc : blockType b.pcb = .S ∧ pcbSCode b.pcb = s1.cfg.scode.resynchResponse
      · rw [if_pos hc]
        simp only [if_pos hc]
        refine (serve_transmit hrest (.opening (s.cfg.openAttempts - left) .ifs) s1.cfg.retryBudget s1.ifsFrame
          as1 s1.resynched (show s1.cfg.scode.WellFormed from hcfg ▸ hsc)).trans ?_
        rw [← State.ifsFrame_eq, show ({ s1 with sseq := 0#1, rseq := 0#1 } : State) = s1.resynched from rfl]
        obtain ⟨hcfg2, hwork2⟩ := internalTransmit_keeps s1.cfg.retryBudget s1.ifsFrame as1 s1.resynched
        generalize internalTransmit s1.cfg.retryBudget s1.ifsFrame as1 s1.resynched = y at hcfg2 hwork2
        obtain ⟨s2, tr2, as2⟩ := y
        have hcfg2 := hcfg2.trans hcfg
        have hwork2 := hwork2.trans hwork
        cases tr2 with
        | raised e => exact hnext s2 _ e as2 hcfg2 hwork2
        | blocked out r => rfl
        | block b2 =>
          refine (serve_endIfs hwork2 (eventsOf as2 rest) _ b2).trans ?_
          rw [hnext s2 .ifs .unexpectedBlock as2 hcfg2 hwork2]
          rfl
      · rw [if_neg hc]
        simp only [if_neg hc]
        exact hnext s1 _ .unexpectedBlock as1 hcfg hwork

/-- T1OPEN in LRC mode, with no command waiting. -/
theorem exec_t1open_of_idle {s : State} (hsc : s.cfg.scode.WellFormed) (hw : s.work = none)
    (hmode : s.edcMode = 0#1) : exec .t1open s =
      .next (openAttemptsFrom (answersFirst s.inputs).2 s.cfg.openAttempts 0#8 (answersFirst s.inputs).1 s) := by
  rw [exec_t1open, State.beginOpen, hmode, if_neg (by decide),
    ← serve_attempts (serve_answersFirst s.inputs) s.cfg.openAttempts 0#8 _ s hsc hw (Nat.le_refl _),
    eventsOf_answersFirst]

/-- Settles O35: the mode test, then the attempts. -/
theorem t1openFollowsAttempts : Obligations.T1openFollowsAttempts := by
  unfold Obligations.T1openFollowsAttempts
  intro s hsc hw
  refine ⟨fun hmode => ?_, exec_t1open_of_idle hsc hw⟩
  rw [exec_t1open, State.beginOpen, if_pos hmode]
  exact congrArg _ (State.serve_idle (s := s.raise .notImplemented) hw _)

/-! ### The two answers that T1OPEN expects -/

section
variable {s : State} {g out : List Byte} {b : Block} {a r : Nat}

/-- A RESYNCH_RESPONSE to the RESYNCH_REQUEST makes T1OPEN send the IFS_REQUEST (43_t1_protocol R197, R200). -/
theorem State.answer_resynchResponse (h : s.cfg.scode.WellFormed)
    (hw : s.work = some ⟨.opening a .resynch, r + 1, out, []⟩) (hr : 1 ≤ s.cfg.retryBudget)
    (hb : t1Parse 0#1 g = .ok b) (hp : b.pcb = pcbS s.cfg.scode.resynchResponse)
    (hout : out.getD 1 0#8 = pcbS s.cfg.scode.resynchRequest) : s.answer (.ok g) =
      ({ s with sseq := 0#1, rseq := 0#1 } : State).callExchange (.opening a .ifs) s.cfg.retryBudget s.ifsFrame := by
  have hcode := (code_iff_decodes h s.cfg.scode.resynchResponse).2.1.1 rfl
  rw [State.answer_reacts h _ hw, State.react_block _ _ ((take_fbCap_of_parse hb).symm ▸ hb),
    State.reactTo_sBlock h _ hp, hcode, if_neg nofun, if_pos ⟨rfl, hout⟩]
  exact State.endResynch_of_code hp hr a

/-- An IFS_RESPONSE with one octet to the IFS_REQUEST ends T1OPEN (43_t1_protocol R198, R200). -/
theorem State.answer_ifsResponse (h : s.cfg.scode.WellFormed)
    (hw : s.work = some ⟨.opening a .ifs, r + 1, out, []⟩) (hb : t1Parse 0#1 g = .ok b)
    (hp : b.pcb = pcbS s.cfg.scode.ifsResponse) (hlen : b.len = 1#8)
    (hout : out.getD 1 0#8 = pcbS s.cfg.scode.ifsRequest) : s.answer (.ok g) =
      ({ s with ifs := g.getD 3 0#8, work := none } : State).finish := by
  have hcode := (code_iff_decodes h s.cfg.scode.ifsResponse).2.2.1 rfl
  have hfive : g.length = 5 := by
    have hsize : g.length = (g.getD 2 0#8).toNat + 4 := (goodFrame_iff.1 (by rw [GoodFrame, hb]; rfl)).1.2
    have hone : g.getD 2 0#8 = 1#8 := by rw [← hlen, ← frameFields_of_parse hb]; rfl
    rw [hsize, hone]
    rfl
  rw [State.answer_reacts h _ hw, State.react_block _ _ ((take_fbCap_of_parse hb).symm ▸ hb),
    State.reactTo_sBlock h _ hp, hcode, if_neg nofun, if_neg nofun, if_pos ⟨rfl, hout⟩,
    ← (fields_of_length_five hb hfive).2, frameFields_of_parse hb]
  exact State.endIfs_of_code hp hlen a

end

/-- The same for a command that has made its call, with the events to come. -/
theorem serve_resynchResponse {u : State} {g out : List Byte} {b : Block} (a r : Nat) (rest : List Input)
    (h : u.cfg.scode.WellFormed) (hr : 1 ≤ u.cfg.retryBudget) (hb : t1Parse 0#1 g = .ok b)
    (hp : b.pcb = pcbS u.cfg.scode.resynchResponse) (hout : out.getD 1 0#8 = pcbS u.cfg.scode.resynchRequest) :
    State.serve (.line (.ok g) :: rest) (u.callExchange (.opening a .resynch) (r + 1) out) =
      State.serve rest (({ u with sseq := 0#1, rseq := 0#1, xcnt := u.xcnt + 1#32, inputs := rest } :
        State).callExchange (.opening a .ifs) u.cfg.retryBudget u.ifsFrame) := by
  have hanswer := State.answer_resynchResponse
    (s := { u.callExchange (.opening a .resynch) (r + 1) out with inputs := rest }) h rfl hr hb hp hout
  rw [State.serve_waiting rfl, hanswer]
  rfl

theorem serve_ifsResponse {u : State} {g out : List Byte} {b : Block} (a r : Nat) (rest : List Input)
    (h : u.cfg.scode.WellFormed) (hb : t1Parse 0#1 g = .ok b) (hp : b.pcb = pcbS u.cfg.scode.ifsResponse)
    (hlen : b.len = 1#8) (hout : out.getD 1 0#8 = pcbS u.cfg.scode.ifsRequest) :
    State.serve (.line (.ok g) :: rest) (u.callExchange (.opening a .ifs) (r + 1) out) =
      { u with ifs := g.getD 3 0#8, xcnt := u.xcnt + 1#32, status := 2#32, work := none, inputs := rest } := by
  have hanswer := State.answer_ifsResponse
    (s := { u.callExchange (.opening a .ifs) (r + 1) out with inputs := rest }) h rfl hb hp hlen hout
  rw [State.serve_waiting rfl, hanswer, State.serve_idle rfl]
  rfl

/-- Settles O34: the first attempt gets both its answers. -/
theorem t1openCompletes : Obligations.T1openCompletes := by
  unfold Obligations.T1openCompletes
  intro s g1 g2 b1 b2 rest hsc hmode ho hr hin hb1 hp1 hb2 hp2 hlen
  rw [← pcbS_eq_or] at hp1 hp2
  obtain ⟨k, hk⟩ : ∃ k, s.cfg.openAttempts = k + 1 := ⟨_, (Nat.sub_add_cancel ho).symm⟩
  obtain ⟨r, hbudget⟩ : ∃ r, s.cfg.retryBudget = r + 1 := ⟨_, (Nat.sub_add_cancel hr).symm⟩
  have hbegin : s.beginOpen = s.callExchange (.opening (s.cfg.openAttempts - k) .resynch) (r + 1) s.resynchFrame := by
    rw [State.beginOpen, hmode, if_neg (by decide), hk, State.tryOpen_succ (by omega), hk, hbudget]
  have hsecond := serve_ifsResponse (u := { s with
    sseq := 0#1, rseq := 0#1, xcnt := s.xcnt + 1#32, inputs := .line (.ok g2) :: rest }) (out := s.ifsFrame)
    (s.cfg.openAttempts - k) r rest hsc hb2 hp2 hlen rfl
  rw [exec_t1open, hin, hbegin, serve_resynchResponse _ _ _ hsc hr hb1 hp1 rfl, hbudget, hsecond]
  have hcount : s.xcnt + 1#32 + 1#32 = s.xcnt + 2#32 := BitVec.add_assoc ..
  simp only [hcount]

end Sys2Proof.Machine
end

section
/-! SUPPORT. The cursor that `tag_decode` moves, and the tag commands (30_encoding R83 to R86, 40_tag_len_unit R121,
R122). -/

namespace Sys2Proof.Machine

/-! ### The tag decoder as a cursor -/

theorem toNat_lowBits (g : Byte) : (g.extractLsb' 0 7).toNat = g.toNat % 128 := by simp

/-- `tagNumber` over the octets in `[i, lim)` is the cursor of 30_encoding R85; what it leaves starts at the cursor. -/
theorem tagNumber_readRange (m : Memory) (lim : Nat) : ∀ (fuel n i : Nat), lim - i < fuel →
    tagNumber n (m.readRange i (lim - i)) =
      (cursorGroups m.read lim fuel n i).map fun p => (p.1, m.readRange p.2 (lim - p.2))
  | 0, _, _, h => absurd h (by omega)
  | fuel + 1, n, i, h => by
    rw [cursorGroups]
    by_cases hlim : lim ≤ i
    · rw [if_pos hlim, Nat.sub_eq_zero_of_le hlim]
      rfl
    · rw [if_neg hlim, show lim - i = lim - (i + 1) + 1 by omega, Memory.readRange_succ, tagNumber]
      by_cases hn : 2 ^ 21 ≤ n
      · rw [if_pos hn, if_pos hn]
        rfl
      · rw [if_neg hn, if_neg hn, toNat_lowBits]
        by_cases hshort : (m.read i).toNat < 128
        · have hbit : ¬ (m.read i).getLsbD 7 = true := by rw [getLsbD_seven_iff]; omega
          rw [if_pos hshort, Nat.mod_eq_of_lt hshort]
          simp only [if_neg hbit]
          rfl
        · have hbit : (m.read i).getLsbD 7 = true := by rw [getLsbD_seven_iff]; omega
          rw [if_neg hshort]
          simp only [if_pos hbit]
          exact tagNumber_readRange m lim fuel _ (i + 1) (by omega)

/-- The cursor moves forward and stays inside the octets. -/
theorem cursorGroups_le {b : Nat → Byte} {lim : Nat} : ∀ {fuel n i m j : Nat},
    cursorGroups b lim fuel n i = .ok (m, j) → i < j ∧ j ≤ lim
  | 0, _, _, _, _, h => by cases h
  | fuel + 1, n, i, m, j, h => by
    rw [cursorGroups] at h
    split_ifs at h
    · obtain ⟨-, rfl⟩ := Prod.mk.inj (Except.ok.inj h)
      omega
    · have := cursorGroups_le h
      omega

/-- The fields of a first tag octet, from numbers (30_encoding R83). -/
theorem tagOctet_fields : ∀ f : Byte, (f.extractLsb' 0 5 = 0x1F#5 ↔ f.toNat % 32 = 31) ∧
    (f.extractLsb' 0 5).setWidth 28 = BitVec.ofNat 28 (f.toNat % 32) ∧
    f.extractLsb' 6 2 = BitVec.ofNat 2 (f.toNat / 64) ∧ f.getLsbD 5 = (f.toNat / 32 % 2 == 1) := by
  decide

/-- `tagDecode` over the octets in `[o, lim)` is the cursor of 30_encoding R85; what it leaves starts at the cursor. -/
theorem tagDecode_readRange (m : Memory) (o lim : Nat) :
    tagDecode (m.readRange o (lim - o)) =
      (cursorTag m.read o lim).map fun p => (p.1, m.readRange p.2 (lim - p.2)) := by
  rw [cursorTag]
  by_cases hlim : lim ≤ o
  · rw [if_pos hlim, Nat.sub_eq_zero_of_le hlim]
    rfl
  · obtain ⟨hlong, hnumber, hcls, hcons⟩ := tagOctet_fields (m.read o)
    rw [if_neg hlim, show lim - o = lim - (o + 1) + 1 by omega, Memory.readRange_succ, tagDecode, hcls, hcons, hnumber]
    by_cases hf : (m.read o).toNat % 32 = 31
    · simp only [if_pos (hlong.2 hf), if_neg (not_not.2 hf),
        tagNumber_readRange m lim (lim + 1) 0 (o + 1) (by omega)]
      cases cursorGroups m.read lim (lim + 1) 0 (o + 1) <;> rfl
    · simp only [if_neg fun h => hf (hlong.1 h), if_pos hf]
      rfl

theorem cursorTag_le {b : Nat → Byte} {o lim i : Nat} {t : Tag} (h : cursorTag b o lim = .ok (t, i)) :
    o < i ∧ i ≤ lim := by
  simp only [cursorTag] at h
  split_ifs at h with hlim
  · obtain ⟨-, rfl⟩ := Prod.mk.inj (Except.ok.inj h)
    omega
  · split at h
    · cases h
    · next hg =>
      obtain ⟨-, rfl⟩ := Prod.mk.inj (Except.ok.inj h)
      have := cursorGroups_le hg
      omega

/-! ### The groups of a tag number -/

section
variable {b : Nat → Byte} {i lim : Nat}

theorem groupValue_mono {j k : Nat} (h : j ≤ k) : groupValue b i j ≤ groupValue b i k := by
  induction h with
  | refl => exact Nat.le_refl _
  | step _ ih =>
    rw [groupValue]
    omega

/-- The cursor passes `k` groups that continue, as long as they stay below 2^21. -/
theorem cursorGroups_reach (fuel : Nat) {k : Nat} (hlim : i + k ≤ lim) (hmore : ∀ j < k, 128 ≤ (b (i + j)).toNat)
    (hsmall : ∀ j < k, groupValue b i j < 2 ^ 21) :
    cursorGroups b lim (fuel + k) 0 i = cursorGroups b lim fuel (groupValue b i k) (i + k) := by
  induction k generalizing fuel with
  | zero => rfl
  | succ k ih =>
    have hk := hmore k (by omega)
    have hvalue := hsmall k (by omega)
    rw [show fuel + (k + 1) = fuel + 1 + k by omega,
      ih (fuel + 1) (by omega) (fun j hj => hmore j (by omega)) (fun j hj => hsmall j (by omega)), cursorGroups,
      if_neg (by omega), if_neg (by omega), if_neg (by omega)]
    rfl

/-- Groups that reach 2^21 and do not end there are malformed. -/
theorem cursorGroups_large {fuel k : Nat} (hfuel : k < fuel) (hlim : i + k < lim)
    (hmore : ∀ j < k, 128 ≤ (b (i + j)).toNat) (hlarge : 2 ^ 21 ≤ groupValue b i k) :
    cursorGroups b lim fuel 0 i = .error .malformedTag := by
  induction k with
  | zero => simp [groupValue] at hlarge
  | succ k ih =>
    by_cases hk : 2 ^ 21 ≤ groupValue b i k
    · exact ih (by omega) (by omega) (fun j hj => hmore j (by omega)) hk
    · have hreach := cursorGroups_reach (lim := lim) (fuel - (k + 1)) (k := k + 1) (by omega) hmore fun j hj =>
        Nat.lt_of_le_of_lt (groupValue_mono (by omega)) (Nat.lt_of_not_le hk)
      obtain ⟨f, hf⟩ : ∃ f, fuel - (k + 1) = f + 1 := ⟨fuel - (k + 1) - 1, by omega⟩
      rw [Nat.sub_add_cancel (by omega), hf, cursorGroups, if_neg (by omega), if_pos hlarge] at hreach
      exact hreach

/-- Groups that all continue up to the limit are malformed. -/
theorem cursorGroups_endless {fuel : Nat} (hfuel : lim < fuel) (hi : i ≤ lim)
    (hmore : ∀ j, i + j < lim → 128 ≤ (b (i + j)).toNat) : cursorGroups b lim fuel 0 i = .error .malformedTag := by
  by_cases hlarge : ∃ j, i + j < lim ∧ 2 ^ 21 ≤ groupValue b i j
  · obtain ⟨j, hj, hv⟩ := hlarge
    exact cursorGroups_large (by omega) hj (fun k hk => hmore k (by omega)) hv
  · have hreach := cursorGroups_reach (b := b) (fuel - (lim - i)) (i := i) (k := lim - i) (lim := lim) (by omega)
      (fun j hj => hmore j (by omega)) fun j hj => Nat.lt_of_not_le fun hv => hlarge ⟨j, by omega, hv⟩
    obtain ⟨f, hf⟩ : ∃ f, fuel - (lim - i) = f + 1 := ⟨fuel - (lim - i) - 1, by omega⟩
    rw [Nat.sub_add_cancel (by omega), hf, cursorGroups, if_pos (by omega)] at hreach
    exact hreach

/-- `k` groups that continue and one that ends, their number below 2^28. -/
theorem cursorGroups_ends {fuel k : Nat} (hfuel : k < fuel) (hlim : i + k < lim)
    (hmore : ∀ j < k, 128 ≤ (b (i + j)).toNat) (hend : (b (i + k)).toNat < 128) (hsmall : groupValue b i k < 2 ^ 21) :
    cursorGroups b lim fuel 0 i = .ok (groupValue b i (k + 1), i + k + 1) := by
  have hreach := cursorGroups_reach (fuel - k) (k := k) (Nat.le_of_lt hlim) hmore fun j hj =>
    Nat.lt_of_le_of_lt (groupValue_mono (by omega)) hsmall
  obtain ⟨f, hf⟩ : ∃ f, fuel - k = f + 1 := ⟨fuel - k - 1, by omega⟩
  rw [Nat.sub_add_cancel (by omega), hf, cursorGroups, if_neg (by omega), if_neg (by omega), if_pos hend] at hreach
  rw [hreach, groupValue, Nat.mod_eq_of_lt hend]

end

/-! ### TAGDEC -/

theorem exec_tagdec (s : State) : exec .tagdec s = .next (s.complete (tagdecBody s)) := rfl

/-- TAGDEC moves the cursor from A0 within TLEN: R0 takes the TagWord, R1 the cursor. -/
theorem tagdecBody_eq (s : State) :
    tagdecBody s = (cursorTag s.tb.read s.a0.toNat s.tlen.toNat).map fun p =>
      { s with r0 := wordOfTag p.1, r1 := BitVec.ofNat 32 p.2 } := by
  rw [tagdecBody, State.tbFrom_eq, tagDecode_readRange]
  cases hc : cursorTag s.tb.read s.a0.toNat s.tlen.toNat with
  | error e => rfl
  | ok p => simp only [Except.map, State.decoded, s.tbOffset_readRange (cursorTag_le hc).2]

theorem exec_tagdec_of_ok {s : State} {t : Tag} {i : Nat}
    (h : cursorTag s.tb.read s.a0.toNat s.tlen.toNat = .ok (t, i)) :
    exec .tagdec s = .next { s with r0 := wordOfTag t, r1 := BitVec.ofNat 32 i, status := 2#32 } := by
  rw [exec_tagdec, tagdecBody_eq, h]
  rfl

theorem exec_tagdec_of_error {s : State}
    (h : cursorTag s.tb.read s.a0.toNat s.tlen.toNat = .error .malformedTag) :
    exec .tagdec s = .next (raised s 0x10#8) := by
  rw [exec_tagdec, tagdecBody_eq, h]
  rfl

theorem toNat_mod_two_beq_one (n : Nat) : (n % 2 == 1).toNat = n % 2 := by
  rcases Nat.mod_two_eq_zero_or_one n with h | h <;> rw [h] <;> rfl

/-- The TagWord of a decoded Tag, from numbers (30_encoding R82). -/
theorem wordOfTag_octet {f n : Nat} (hf : f < 256) (hn : n < 2 ^ 28) :
    wordOfTag ⟨BitVec.ofNat 28 n, BitVec.ofNat 2 (f / 64), f / 32 % 2 == 1⟩ =
      tagWordOf (f / 64) (f / 32 % 2) n := by
  rw [wordOfTag_eq, toNat_mod_two_beq_one, BitVec.toNat_ofNat, BitVec.toNat_ofNat, Nat.mod_eq_of_lt hn,
    Nat.mod_eq_of_lt (by omega)]

section
variable {b : Nat → Byte} {o lim : Nat}

theorem cursorTag_outside (h : lim ≤ o) : cursorTag b o lim = .error .malformedTag := if_pos h

theorem cursorTag_short (hlim : o < lim) (hf : (b o).toNat % 32 ≠ 31) : cursorTag b o lim =
    .ok (⟨BitVec.ofNat 28 ((b o).toNat % 32), BitVec.ofNat 2 ((b o).toNat / 64), (b o).toNat / 32 % 2 == 1⟩, o + 1) :=
  (if_neg (Nat.not_le.2 hlim)).trans (if_pos hf)

theorem cursorTag_long {n i : Nat} (hlim : o < lim) (hf : (b o).toNat % 32 = 31)
    (h : cursorGroups b lim (lim + 1) 0 (o + 1) = .ok (n, i)) : cursorTag b o lim =
      .ok (⟨BitVec.ofNat 28 n, BitVec.ofNat 2 ((b o).toNat / 64), (b o).toNat / 32 % 2 == 1⟩, i) := by
  simp only [cursorTag, if_neg (Nat.not_le.2 hlim), if_neg (not_not.2 hf), h]

theorem cursorTag_malformed (hlim : o < lim) (hf : (b o).toNat % 32 = 31)
    (h : cursorGroups b lim (lim + 1) 0 (o + 1) = .error .malformedTag) :
    cursorTag b o lim = .error .malformedTag := by
  simp only [cursorTag, if_neg (Nat.not_le.2 hlim), if_neg (not_not.2 hf), h]

end

/-- Settles O14: the clauses of the statement are the ways the cursor goes. -/
theorem tagdecReadsTag : Obligations.TagdecReadsTag := by
  unfold Obligations.TagdecReadsTag
  refine ⟨rfl, fun s => ?_⟩
  intro b o f
  have hf : f < 256 := (b o).isLt
  refine ⟨fun hlim => ?_, fun hlim hshort => ?_, fun k hlim hlong hmore hend hsmall => ?_,
    fun k hlim hlong hmore hlarge => ?_, fun hlim hlong hmore => ?_⟩
  · exact exec_tagdec_of_error (cursorTag_outside hlim)
  · rw [exec_tagdec_of_ok (cursorTag_short hlim hshort)]
    exact congrArg (fun w => Host.Outcome.next
      { s with r0 := w, r1 := BitVec.ofNat 32 (o + 1), status := 2#32 }) (wordOfTag_octet (n := f % 32) hf (by omega))
  · have hgroups := cursorGroups_ends (b := b) (fuel := s.tlen.toNat + 1) (by omega) hlim hmore hend hsmall
    have hvalue : groupValue b (o + 1) (k + 1) < 2 ^ 28 := by
      rw [groupValue]
      omega
    rw [exec_tagdec_of_ok (cursorTag_long (by omega) hlong hgroups), show o + 2 + k = o + 1 + k + 1 by omega]
    exact congrArg (fun w => Host.Outcome.next
      { s with r0 := w, r1 := BitVec.ofNat 32 (o + 1 + k + 1), status := 2#32 }) (wordOfTag_octet hf hvalue)
  · exact exec_tagdec_of_error (cursorTag_malformed (by omega) hlong
      (cursorGroups_large (by omega) hlim hmore hlarge))
  · exact exec_tagdec_of_error (cursorTag_malformed hlim hlong (cursorGroups_endless (by omega) hlim hmore))

/-! ### TAGENC -/

theorem exec_tagenc (s : State) : exec .tagenc s = .next (s.complete (tagencBody s)) := rfl

theorem tagFirst_eq : ∀ (cls : BitVec 2) (cons : Bool) (low : BitVec 5), (cls ++ BitVec.ofBool cons ++ low : Byte) =
    BitVec.ofNat 8 (cls.toNat * 64 + cons.toNat * 32 + low.toNat) := by decide

theorem tagGroup_eq : ∀ (more : Bool) (g : BitVec 7), (BitVec.ofBool more ++ g : Byte) =
    BitVec.ofNat 8 (more.toNat * 128 + g.toNat) := by decide

/-- The first octet of the tag of a TagWord: its lead bits and its low five bits (30_encoding R83). -/
theorem tagFirst_tagOfWord (w : Word) (low : BitVec 5) : (tagLead (tagOfWord w) ++ low : Byte) =
    BitVec.ofNat 8 (w.toNat / 2 ^ 28 % 4 * 64 + w.toNat / 2 ^ 30 % 2 * 32 + low.toNat) := by
  rw [tagOfWord_eq, tagLead, tagFirst_eq, tagNamed, toNat_mod_two_beq_one, BitVec.toNat_ofNat, Nat.mod_mod]

theorem tagGroups_zero (n : Nat) : tagGroups 0 n = [] := rfl

/-- The continuation octets that `tag_encode` gives, group by group (30_encoding R84). -/
theorem tagGroups_succ (k n : Nat) : tagGroups (k + 1) n =
    BitVec.ofNat 8 ((if k = 0 then 0 else 0x80) + n / 2 ^ (7 * k) % 2 ^ 7) :: tagGroups k n := by
  rw [tagGroups, tagGroup_eq, BitVec.toNat_ofNat, Nat.shiftRight_eq_div_pow]
  by_cases hk : k = 0
  · simp [hk]
  · simp [hk, Nat.pos_of_ne_zero hk]

/-- `tag_encode` size by size (30_encoding R83, R84, R86). -/
theorem tagEncode_eq_tagOctets (w : Word) : tagEncode (tagOfWord w) = tagOctets w := by
  have hn : (tagOfWord w).number.toNat = w.toNat % 2 ^ 28 := by simp [tagOfWord]
  rw [tagEncode, hn, tagFirst_tagOfWord, tagFirst_tagOfWord, tagOctets, tagSize]
  have hlow : ((tagOfWord w).number.setWidth 5).toNat = w.toNat % 2 ^ 28 % 2 ^ 5 := by
    rw [BitVec.toNat_setWidth, hn]
  have hmax : w.toNat % 2 ^ 28 < 2 ^ 28 := Nat.mod_lt _ (by decide)
  generalize w.toNat % 2 ^ 28 = n at hlow hmax ⊢
  generalize w.toNat / 2 ^ 28 % 4 * 64 + w.toNat / 2 ^ 30 % 2 * 32 = lead
  by_cases h1 : n < 0x1F
  · simp only [if_pos h1, hlow, Nat.mod_eq_of_lt (show n < 2 ^ 5 by omega)]
  · simp only [if_neg h1]
    split_ifs with h2 h3 h4
    · simp [tagGroups_succ, tagGroups_zero, Nat.mod_eq_of_lt h2]
    · simp [tagGroups_succ, tagGroups_zero, Nat.mod_eq_of_lt (show n / 128 < 128 by omega)]
    · simp [tagGroups_succ, tagGroups_zero, Nat.mod_eq_of_lt (show n / 16384 < 128 by omega)]
    · simp [tagGroups_succ, tagGroups_zero, Nat.mod_eq_of_lt (show n / 2097152 < 128 by omega)]

/-- Settles O15: the output convention of the encoders, at the octets of the tag. -/
theorem tagencAppendsTag : Obligations.TagencAppendsTag := by
  unfold Obligations.TagencAppendsTag
  refine ⟨rfl, fun s hm hc => ?_⟩
  intro bs
  have hend := State.complete_emit hm hc bs
  rw [exec_tagenc, tagencBody, tagEncode_eq_tagOctets]
  by_cases hwild : 2 ^ 31 ≤ s.a0.toNat
  · rw [if_pos hwild, if_pos ((wildcard_iff _).2 hwild)]
    rfl
  · rw [if_neg hwild, if_neg fun h => hwild ((wildcard_iff _).1 h)]
    split_ifs at hend ⊢
    · rw [hend]
    · exact ⟨_, rfl, hend⟩

end Sys2Proof.Machine
end

section
/-! SUPPORT. The descent of `parse_node` with its cursor, and what a parse from an offset does (41_tlv_unit R141 to
R144). -/

namespace Sys2Proof.Machine

/-- With no octets left there is no child. -/
theorem parseKids_nil (p : List Byte → Except Err (Tree × List Byte)) (fuel : Nat) : parseKids p fuel [] = .ok [] := by
  cases fuel <;> rfl

/-- Octets that are not used up are one child, then the others. -/
theorem parseKids_succ {p : List Byte → Except Err (Tree × List Byte)} {fuel : Nat} {w : List Byte} (hw : w ≠ []) :
    parseKids p (fuel + 1) w = (p w).bind fun r => (parseKids p fuel r.2).map fun ts => r.1 :: ts := by
  obtain ⟨b, w, rfl⟩ := List.exists_cons_of_ne_nil hw
  rw [parseKids]
  cases p (b :: w) with
  | error e => rfl
  | ok r =>
    simp only [Except.bind]
    cases parseKids p fuel r.2 <;> rfl

mutual
/-- `parseNode` over the octets in `[o, lim)` is the descent with a cursor, and the octets it leaves start there. The
model counts the levels left, the descent the depth reached. -/
theorem parseNode_readRange (m : Memory) (depthMax : Nat) : ∀ (fuel o lim d : Nat), lim - o < fuel →
    parseNode (depthMax + 1 - d) (m.readRange o (lim - o)) =
      (cursorNode m.read depthMax fuel o lim d).map fun p => (p.1, m.readRange p.2 (lim - p.2))
  | 0, _, _, _, h => absurd h (by omega)
  | fuel + 1, o, lim, d, h => by
    rw [cursorNode]
    by_cases hd : depthMax < d
    · rw [if_pos hd, Nat.sub_eq_zero_of_le hd]
      rfl
    · rw [if_neg hd, show depthMax + 1 - d = depthMax + 1 - (d + 1) + 1 by omega, parseNode, tagDecode_readRange]
      cases htag : cursorTag m.read o lim with
      | error e => rfl
      | ok r =>
        obtain ⟨t, o1⟩ := r
        have hlen := lenDecode_readRange m o1 lim
        simp only [Except.map, hlen]
        cases hcursor : cursorLen m.read o1 lim with
        | error e =>
          rw [hcursor] at hlen
          simp only [lenDecode_error hlen]
        | ok r =>
          obtain ⟨l, o2⟩ := r
          have hpast := cursorTag_le htag
          have hle := cursorLen_le hcursor
          rw [hcursor] at hlen
          obtain ⟨hnext, -⟩ := lenDecode_ok hlen
          simp only [Memory.length_readRange] at hnext
          simp only [Memory.length_readRange, Memory.drop_readRange]
          by_cases hfit : lim < o2 + l
          · rw [if_pos (by omega), if_pos hfit]
          · have hkids := parseKids_readRange m depthMax fuel l o2 (o2 + l) (d + 1) (by omega) (by omega)
            rw [Nat.add_sub_cancel_left] at hkids
            rw [if_neg (by omega), if_neg hfit, Memory.take_readRange m (by omega), hkids, Nat.sub_sub]
            cases t.constructed with
            | false => rfl
            | true => cases cursorKids m.read depthMax fuel o2 (o2 + l) (d + 1) <;> rfl
/-- The loop over the children, from the cursor to the end of the content. -/
theorem parseKids_readRange (m : Memory) (depthMax : Nat) : ∀ (fuel n p fin d : Nat), fin - p + 1 < fuel →
    fin - p ≤ n →
    parseKids (parseNode (depthMax + 1 - d)) n (m.readRange p (fin - p)) = cursorKids m.read depthMax fuel p fin d
  | 0, _, _, _, _, h, _ => absurd h (by omega)
  | fuel + 1, n, p, fin, d, h, hn => by
    rw [cursorKids]
    by_cases hfin : fin ≤ p
    · rw [if_pos hfin, Nat.sub_eq_zero_of_le hfin]
      exact parseKids_nil _ _
    · obtain ⟨n, rfl⟩ := Nat.exists_eq_add_of_le' (show 1 ≤ n by omega)
      have hne : m.readRange p (fin - p) ≠ [] := by
        rw [← List.length_pos_iff, Memory.length_readRange]
        omega
      have hnode := parseNode_readRange m depthMax fuel p fin d (by omega)
      rw [if_neg hfin, parseKids_succ hne, hnode]
      cases hcursor : cursorNode m.read depthMax fuel p fin d with
      | error e => rfl
      | ok r =>
        obtain ⟨k, p'⟩ := r
        rw [hcursor] at hnode
        have htakes := parseNode_takes hnode
        simp only [Memory.length_readRange] at htakes
        have hrest := parseKids_readRange m depthMax fuel n p' fin d (by omega) (by omega)
        simp only [Except.map, Except.bind, hrest]
        cases cursorKids m.read depthMax fuel p' fin d <;> rfl
end

/-- The descent stays inside its octets. -/
theorem cursorNode_le {b : Nat → Byte} {depthMax fuel o lim d i : Nat} {t : Tree}
    (h : cursorNode b depthMax fuel o lim d = .ok (t, i)) : i ≤ lim := by
  cases fuel with
  | zero => simp [cursorNode] at h
  | succ fuel =>
    rw [cursorNode] at h
    split at h
    · cases h
    · split at h
      · cases h
      · split at h
        · cases h
        · split at h
          · cases h
          · next hfit =>
            split at h
            · split at h
              · cases h
              · obtain ⟨-, rfl⟩ := Prod.mk.inj (Except.ok.inj h)
                exact Nat.le_of_not_lt hfit
            · obtain ⟨-, rfl⟩ := Prod.mk.inj (Except.ok.inj h)
              exact Nat.le_of_not_lt hfit

theorem exec_tlvparse (s : State) : exec .tlvparse s = .next (s.complete (parseAtBody s 0)) := rfl

/-- What a command that parses leaves once the descent has its tree: ArenaFull, or the tree committed. -/
theorem State.complete_commit (s : State) (t : Tree) (w : Word) :
    s.complete ((s.commit t).map fun r => { r.1 with r0 := BitVec.ofNat 32 r.2, r1 := w }) =
      if s.cfg.nodeCap < s.ncnt.toNat + t.count ∨ s.cfg.valCap < s.vused.toNat + t.valueBytes then raised s 0x46#8
      else { s with
        nodes := s.nodes ++ t.records s.ncnt.toNat none
        ncnt := BitVec.ofNat 32 (s.ncnt.toNat + t.count)
        vused := BitVec.ofNat 32 (s.vused.toNat + t.valueBytes)
        r0 := s.ncnt
        r1 := w
        status := 2#32 } := by
  rw [State.commit]
  by_cases hfull : s.cfg.nodeCap < s.ncnt.toNat + t.count ∨ s.cfg.valCap < s.vused.toNat + t.valueBytes
  · rw [if_pos hfull, if_pos hfull]
    rfl
  · rw [if_neg hfull, if_neg hfull]
    simp [Except.map, State.finish, statusDone]

/-- A parse from offset `o` is the descent from there, then the commit. -/
theorem complete_parseAtBody (s : State) (o : Nat) : s.complete (parseAtBody s o) = parsedFrom s o := by
  have hnode := parseNode_readRange s.tb s.cfg.depthMax (s.tlen.toNat + 2) o s.tlen.toNat 1 (by omega)
  rw [← s.tbFrom_eq, Nat.add_sub_cancel] at hnode
  rw [parsedFrom]
  cases hcursor : cursorNode s.tb.read s.cfg.depthMax (s.tlen.toNat + 2) o s.tlen.toNat 1 with
  | error e =>
    rw [hcursor] at hnode
    rw [parseAtBody, hnode]
    rfl
  | ok r =>
    obtain ⟨t, i⟩ := r
    rw [hcursor] at hnode
    rw [parseAtBody_of_parse hnode, s.complete_commit t, s.tbOffset_readRange (cursorNode_le hcursor)]

/-- Settles O18: both commands parse from their offset. -/
theorem tlvparseFollowsDescent : Obligations.TlvparseFollowsDescent := by
  unfold Obligations.TlvparseFollowsDescent
  refine ⟨rfl, rfl, fun s => ⟨?_, ?_⟩⟩
  · rw [exec_tlvparse, complete_parseAtBody]
  · rw [exec_tlvparseat, complete_parseAtBody]

/-! ### The encoding of a tree that fits -/

/-- TB from the encoding of a tree on: that encoding, then what stands up to TLEN. -/
theorem State.tbFrom_of_octetsAt {s : State} {o : Nat} {bs : List Byte} (h : octetsAt s.tb.read o bs.length = bs)
    (hroom : o + bs.length ≤ s.tlen.toNat) :
    s.tbFrom o = bs ++ s.tb.readRange (o + bs.length) (s.tlen.toNat - (o + bs.length)) := by
  rw [octetsAt_read] at h
  have hsplit := List.take_append_drop bs.length (s.tb.readRange o (s.tlen.toNat - o))
  rw [Memory.take_readRange _ (by omega), Memory.drop_readRange, Nat.sub_sub, h] at hsplit
  rw [s.tbFrom_eq, hsplit]

/-- Settles O19: the parse inverts the encoding, and the commit has room. -/
theorem tlvparseStoresTree : Obligations.TlvparseStoresTree := by
  unfold Obligations.TlvparseStoresTree
  intro s o tree hfits hat hroom hnodes hvals
  have hparse := parseNode_enc tree (s.tb.readRange (o + tree.enc.length) (s.tlen.toNat - (o + tree.enc.length))) hfits
  rw [← State.tbFrom_of_octetsAt hat hroom] at hparse
  have hbody : s.complete (parseAtBody s o) = _ :=
    (congrArg s.complete (parseAtBody_of_parse hparse)).trans (s.complete_commit tree _)
  rw [if_neg (by omega), s.tbOffset_readRange hroom] at hbody
  refine ⟨?_, ?_⟩
  · rintro rfl
    rw [exec_tlvparse, hbody]
  · rintro rfl
    rw [exec_tlvparseat, hbody]

/-! ### Tags and lengths -/

/-- The first continuation octet of a tag holds a group that is not 0 (30_encoding R84, R86). -/
theorem tagGroups_head_ne {n : Nat} (hn : n < 2 ^ 28) (hlong : ¬ n < 0x1F) :
    (tagGroups (tagSize n - 1) n)[0]? ≠ some 0x80#8 := by
  have hhead : ∀ k, (k ≠ 0 → n / 2 ^ (7 * k) % 2 ^ 7 ≠ 0) → (tagGroups (k + 1) n)[0]? ≠ some 0x80#8 := by
    intro k hk
    rw [tagGroups_succ, List.getElem?_cons_zero, ne_eq, Option.some.injEq, ← BitVec.toNat_inj]
    have hgroup : n / 2 ^ (7 * k) % 2 ^ 7 < 2 ^ 7 := Nat.mod_lt _ (by decide)
    simp only [BitVec.toNat_ofNat]
    split_ifs with hzero
    · omega
    · have := hk hzero
      omega
  unfold tagSize
  split_ifs with h2 h3 h4
  · exact hhead 0 (absurd rfl)
  · exact hhead 1 fun _ => by omega
  · exact hhead 2 fun _ => by omega
  · exact hhead 3 fun _ => by omega

/-- Settles O51: the inverse laws of the two encoders, and the sizes. -/
theorem tagAndLengthInverse : Obligations.TagAndLengthInverse := by
  unfold Obligations.TagAndLengthInverse
  refine ⟨fun t x => ⟨tagDecode_tagEncode t x, length_tagEncode t, ?_⟩,
    fun l x hl => ⟨lenDecode_lenEncode hl x, length_lenEncode l⟩⟩
  rw [tagEncode]
  split_ifs with hshort
  · simp
  · exact tagGroups_head_ne t.number.isLt hshort

end Sys2Proof.Machine
end

section
/-! SUPPORT. The walks of the arena meet the equations of the spec (30_encoding R90, 41_tlv_unit R149). -/

namespace Sys2Proof.Machine

section
variable {d : Nat} {ns : List Node} (h : Linked d ns)
include h

theorem heightOf_eq {x : Nat} {n : Node} (hn : ns[x]? = some n) :
    heightOf ns x = 1 + (n.children.map (heightOf ns)).foldr max 0 :=
  h.walk_eq (walk := fun k => heightTo k ns) (make := fun _ heights => 1 + heights.foldr max 0)
    (fun k y m hm => by simp [heightTo, hm]) hn

/-- The path up from a node that has a parent is that node, then the path of the parent. -/
theorem pathUp_of_parent {x p : Nat} (hp : parentOf ns x = some p) :
    pathUp ns.length ns x = x :: pathUp ns.length ns p := by
  obtain ⟨l, hl, -⟩ := h.paths p (h.parent_lt hp)
  have hx := IsPath.step hp hl
  rw [hx.pathUp_eq hx.length_le, hl.pathUp_eq hl.length_le]

theorem depthOf_of_parent {x p : Nat} (hp : parentOf ns x = some p) : depthOf ns x = depthOf ns p + 1 := by
  rw [depthOf, pathUp_of_parent h hp]
  rfl

theorem rootOf_of_parent {x p : Nat} (hp : parentOf ns x = some p) : rootOf ns x = rootOf ns p := by
  obtain ⟨l, hl, -⟩ := h.paths p (h.parent_lt hp)
  have hne : pathUp ns.length ns p ≠ [] := by
    rw [hl.pathUp_eq hl.length_le]
    exact hl.ne_nil
  obtain ⟨y, path, hpath⟩ := List.exists_cons_of_ne_nil hne
  rw [rootOf, rootOf, pathUp_of_parent h hp, hpath, List.getLastD_cons, List.getLastD_cons, List.getLastD_cons]

end

/-- A root is at depth 1 and is its own root. -/
theorem depthOf_of_root {ns : List Node} {x : Nat} (hx : x < ns.length) (hr : parentOf ns x = none) :
    depthOf ns x = 1 := (IsPath.root hx hr).depthOf_eq

theorem rootOf_of_root {ns : List Node} {x : Nat} (hx : x < ns.length) (hr : parentOf ns x = none) :
    rootOf ns x = x := (IsPath.root hx hr).rootOf_eq hr (List.mem_singleton.2 rfl)

/-- Settles O21: each walk meets its equation in a forest, and the size of `enc` gives that of the content. -/
theorem arenaWalksMeetEquations : Obligations.ArenaWalksMeetEquations := by
  unfold Obligations.ArenaWalksMeetEquations
  intro s h x n hn ns enc content
  have hx : x < s.nodes.length := (List.getElem?_eq_some_iff.1 hn).1
  have henc : enc x = tagEncode n.tag ++ lenEncode n.length ++ content := by
    refine (encNode_eq h.linked hn).trans ?_
    simp only [Node.encWith, Node.children, content, enc]
    cases n.body <;> rfl
  have hlen : (enc x).length = tagSize n.tag.number.toNat + lenSize n.length + n.length := by
    rw [show (enc x).length = _ from length_encNode h.linked h.lengths hx, sizeAt_of_getElem? hn, Node.size]
  refine ⟨henc, ?_, hlen, ?_, ?_, heightOf_eq h.linked hn⟩
  · rw [henc, List.length_append, List.length_append, length_tagEncode, length_lenEncode] at hlen
    omega
  · have hp := parentOf_of_getElem? hn
    cases hparent : n.parent with
    | none => exact depthOf_of_root hx (hp.trans hparent)
    | some p => exact depthOf_of_parent h.linked (hp.trans hparent)
  · have hp := parentOf_of_getElem? hn
    cases hparent : n.parent with
    | none => exact rootOf_of_root hx (hp.trans hparent)
    | some p => exact rootOf_of_parent h.linked (hp.trans hparent)

end Sys2Proof.Machine
end

section
/-! SUPPORT. T1OPEN and T1XMIT end if their exchange calls return (70_reset_and_hazards R271, log entry 21). -/

namespace Sys2Proof.Machine

/-! ### One more answer -/

/-- A command has ended, or it waits and all the exchange calls it can still make return. -/
def State.Returns (s : State) : Prop :=
  s.Ended ∨ ∃ w, s.work = some w ∧ s.busy = true ∧ ExchangesReturn (w.exchangesLeft s.cfg) s.inputs

theorem busy_of_status {s : State} (h : s.status = statusBusy) : s.busy = true := by
  rw [State.busy, h]
  rfl

/-- Within the calls that return, a command ends. -/
theorem EndsWithin.returns {k : Nat} {s t : State} (h : EndsWithin k s t) (hes : ExchangesReturn k s.inputs) :
    t.Returns := by
  rcases h.ends with hend | ⟨w, hw, hstatus, hk⟩
  · exact .inl hend
  · obtain ⟨hcount, hreset⟩ := hes
    refine .inr ⟨w, hw, busy_of_status hstatus, ?_, ?_⟩
    · rw [h.cfg, h.inputs]
      exact Nat.le_trans hk hcount
    · rwa [h.inputs]

/-- No command waits when all its calls have returned. -/
theorem ExchangesReturn.nil {c : Config} {w : Work} : ¬ ExchangesReturn (w.exchangesLeft c) [] := fun h =>
  Nat.not_succ_le_zero 0 (Nat.le_trans (exchangesLeft_pos c w) h.1)

theorem ExchangesReturn.host {n : Nat} {a : Access} {es : List Input} (h : ExchangesReturn n (.host a :: es)) :
    ExchangesReturn n es := by
  obtain ⟨hcount, hreset⟩ := h
  rw [List.countP_cons_of_neg (by simp [Input.isAnswer])] at hcount
  exact ⟨hcount, fun hmem => hreset (List.mem_cons_of_mem _ hmem)⟩

theorem ExchangesReturn.line {n : Nat} {a : Answer} {es : List Input} (h : ExchangesReturn n (.line a :: es)) :
    ExchangesReturn (n - 1) es := by
  obtain ⟨hcount, hreset⟩ := h
  rw [List.countP_cons_of_pos (by simp [Input.isAnswer])] at hcount
  exact ⟨by omega, fun hmem => hreset (List.mem_cons_of_mem _ hmem)⟩

/-- The answer that comes next leaves a command whose calls return. -/
theorem ExchangesReturn.answer {s : State} {w : Work} (hw : s.work = some w) {a : Answer} {es : List Input}
    (hes : ExchangesReturn (w.exchangesLeft s.cfg) (.line a :: es)) :
    (({ s with inputs := es }).answer a).Returns ∧ (({ s with inputs := es }).answer a).inputs = es ∧
      (({ s with inputs := es }).answer a).cmd = s.cmd := by
  have hends := State.answer_ends (s := { s with inputs := es }) hw a
  exact ⟨hends.returns hes.line, hends.inputs, hends.cmd⟩

/-! ### All the answers -/

/-- While BUSY is 1 a HOST access changes the record of what the HOST read, at most (70_reset_and_hazards R266). -/
theorem State.arrive_host_of_busy {s : State} (hbusy : s.busy = true) (a : Access) :
    ∃ v, s.arrive (.host a) = .settled { s with hostData := v } := by
  cases a with
  | writeReg n v => exact ⟨_, State.arrive_writeReg_of_busy hbusy n v⟩
  | writeByte sp off b => exact ⟨_, State.arrive_writeByte_of_busy hbusy sp off b⟩
  | readReg n => exact ⟨_, rfl⟩
  | readByte sp off => exact ⟨_, rfl⟩

theorem step_host_of_busy {s : State} (hbusy : s.busy = true) {a : Access} {es : List Input}
    (hin : s.inputs = .host a :: es) : ∃ v, step s = .next { s with inputs := es, hostData := v } := by
  obtain ⟨v, hv⟩ := State.arrive_host_of_busy (s := { s with inputs := es }) hbusy a
  exact ⟨v, step_of_settled hin hv⟩

theorem run_succ {n : Nat} {s t : State} (h : step s = .next t) : run (n + 1) s = run n t := by
  rw [run, h]

/-- A command whose calls return ends, in no more steps than there are events. -/
theorem State.Returns.run : ∀ {es : List Input} {s : State}, s.inputs = es → s.Returns →
    ∃ n t, n ≤ es.length ∧ run n s = .next t ∧ t.Ended ∧ t.cmd = s.cmd
  | _, s, _, .inl hend => ⟨0, s, Nat.zero_le _, rfl, hend, rfl⟩
  | [], _, hin, .inr ⟨_, _, _, hes⟩ => absurd (hin ▸ hes) ExchangesReturn.nil
  | .host a :: es, s, hin, .inr ⟨w, hw, hbusy, hes⟩ => by
    obtain ⟨v, hv⟩ := step_host_of_busy hbusy hin
    rw [hin] at hes
    obtain ⟨n, t, hn, hrun, hend, hcmd⟩ := State.Returns.run (s := { s with inputs := es, hostData := v }) rfl
      (.inr ⟨w, hw, hbusy, hes.host⟩)
    exact ⟨n + 1, t, Nat.succ_le_succ hn, (run_succ hv).trans hrun, hend, hcmd⟩
  | .line a :: es, s, hin, .inr ⟨w, hw, _, hes⟩ => by
    rw [hin] at hes
    obtain ⟨hreturns, hinputs, hcmd⟩ := hes.answer hw
    obtain ⟨n, t, hn, hrun, hend, hcmd'⟩ := hreturns.run hinputs
    exact ⟨n + 1, t, Nat.succ_le_succ hn, (run_succ (step_line hin)).trans hrun, hend, hcmd'.trans hcmd⟩
  | .hardReset :: es, s, hin, .inr ⟨_, _, _, hes⟩ => absurd (hin ▸ List.mem_cons_self) hes.2

/-- The same after the answers that stand first were served (log entry 1). -/
theorem State.Returns.serve : ∀ {es : List Input} {s : State}, s.inputs = es → s.Returns →
    (s.serve es).Returns ∧ (s.serve es).inputs.length ≤ es.length ∧ (s.serve es).cmd = s.cmd
  | es, s, hin, .inl hend => by
    rw [State.serve_idle hend.1]
    exact ⟨.inl hend, Nat.le_of_eq (congrArg List.length hin), rfl⟩
  | [], _, hin, .inr ⟨_, _, _, hes⟩ => absurd (hin ▸ hes) ExchangesReturn.nil
  | .host a :: es, s, hin, .inr hwaits => by
    rw [State.serve_host]
    exact ⟨.inr hwaits, Nat.le_of_eq (congrArg List.length hin), rfl⟩
  | .line a :: es, s, hin, .inr ⟨w, hw, _, hes⟩ => by
    rw [hin] at hes
    obtain ⟨hreturns, hinputs, hcmd⟩ := hes.answer hw
    obtain ⟨hserved, hlen, hcmd'⟩ := hreturns.serve hinputs
    rw [State.serve_waiting hw]
    exact ⟨hserved, Nat.le_succ_of_le hlen, hcmd'.trans hcmd⟩
  | .hardReset :: es, s, hin, .inr ⟨_, _, _, hes⟩ => absurd (hin ▸ List.mem_cons_self) hes.2

/-! ### The beginning -/

theorem State.raise_ends {s : State} (hw : s.work = none) (k : Nat) (e : Err) : EndsWithin k s (s.raise e) :=
  ⟨.inl ⟨hw, .inr rfl⟩, rfl, rfl, rfl⟩

theorem State.beginOpen_ends {s : State} (hw : s.work = none) :
    EndsWithin (exchangesOf s.cfg .t1open) s s.beginOpen := by
  rw [State.beginOpen]
  split_ifs
  · exact State.raise_ends hw _ _
  · exact s.tryOpen_ends _ _

theorem State.beginXmit_ends {s : State} (hw : s.work = none) :
    EndsWithin (exchangesOf s.cfg .t1xmit) s s.beginXmit := by
  rcases s.beginXmit_cases with ⟨-, heq⟩ | ⟨-, ⟨-, heq⟩ | ⟨-, ⟨-, heq⟩ | ⟨-, heq⟩⟩⟩ <;> rw [heq]
  · exact State.raise_ends hw _ _
  · exact State.raise_ends hw _ _
  · exact State.raise_ends hw _ _
  · obtain ⟨hcfg, hcmd, hinputs⟩ := s.storeSlot_keeps s.sseq s.xmitFrame
    exact (State.transmit_ends _ _ _ _).weaken (Nat.le_refl _) hcfg hcmd hinputs

/-- T1OPEN or T1XMIT whose calls return ends, or waits for calls that return. -/
theorem returns_of_exec {i : Instr} (hi : i = .t1open ∨ i = .t1xmit) {s : State} (hw : s.work = none)
    (hes : ExchangesReturn (exchangesOf s.cfg i) s.inputs) :
    ∃ t, exec i s = .next t ∧ t.Returns ∧ t.inputs.length ≤ s.inputs.length ∧ t.cmd = s.cmd := by
  rcases hi with rfl | rfl
  · have hbegin := State.beginOpen_ends hw
    obtain ⟨hreturns, hlen, hcmd⟩ := (hbegin.returns hes).serve hbegin.inputs
    exact ⟨_, exec_t1open s, hreturns, hlen, hcmd.trans hbegin.cmd⟩
  · have hbegin := State.beginXmit_ends hw
    obtain ⟨hreturns, hlen, hcmd⟩ := (hbegin.returns hes).serve hbegin.inputs
    exact ⟨_, exec_t1xmit s, hreturns, hlen, hcmd.trans hbegin.cmd⟩

/-! ### No answer, and the other commands -/

/-- While the HOST alone acts, a busy engine stays as it is. -/
theorem run_of_busy : ∀ (n : Nat) {s : State}, s.busy = true → (∀ e ∈ s.inputs, ∃ a, e = .host a) →
    ∃ t, run n s = .next t ∧ t = { s with inputs := t.inputs, hostData := t.hostData }
  | 0, s, _, _ => ⟨s, rfl, rfl⟩
  | n + 1, s, hbusy, hhost => by
    cases hin : s.inputs with
    | nil =>
      rw [run_succ (step_nil hin)]
      exact run_of_busy n hbusy hhost
    | cons e es =>
      obtain ⟨a, rfl⟩ := hhost e (hin ▸ List.mem_cons_self)
      obtain ⟨v, hv⟩ := step_host_of_busy hbusy hin
      obtain ⟨t, hrun, ht⟩ := run_of_busy n (s := { s with inputs := es, hostData := v }) hbusy
        fun e he => hhost e (hin ▸ List.mem_cons_of_mem _ he)
      exact ⟨t, (run_succ hv).trans hrun, ht⟩

/-- A transactional command leaves no command that waits. -/
theorem ended_of_transactional {i : Instr} (hi : i ∈ transactional) {s t : State} (hw : s.work = none)
    (h : exec i s = .next t) : t.Ended := by
  rcases exec_transactional_cases hi h with ⟨u, hu, rfl⟩ | ⟨e, -, rfl⟩
  · refine ⟨?_, .inl rfl⟩
    by_cases hreset : i = .srst
    · subst hreset
      cases hu
      rfl
    · rw [withResults_of_bodyOf hreset hu]
      exact hw
  · exact ⟨hw, .inr rfl⟩

/-- Settles O60: every answer leaves fewer calls, HOST accesses leave them, and the events bring enough answers. -/
theorem commandsEndIfExchangesReturn : Obligations.CommandsEndIfExchangesReturn := by
  unfold Obligations.CommandsEndIfExchangesReturn
  refine ⟨fun s v es i hidle hw hin hdec hi hes => ?_, fun s w hbusy hw hes => ?_, fun s w n hbusy _ hhost => ?_,
    fun s rest hin => ?_, fun i s hformat hopen hxmit hw => ?_⟩
  · have hrun := step_of_run hin (State.arrive_command (s := { s with inputs := es }) hidle hdec)
    obtain ⟨t, hexec, hreturns, hlen, hcmd⟩ :=
      returns_of_exec (s := ({ s with inputs := es } : State).start (v.setWidth 8)) hi hw hes
    obtain ⟨n, u, hn, hfinal, hend, hcmd'⟩ := hreturns.run rfl
    exact ⟨n, u, Nat.le_trans hn hlen, (run_succ (hrun.trans hexec)).trans hfinal, hend, hcmd'.trans hcmd⟩
  · exact State.Returns.run rfl (.inr ⟨w, hw, hbusy, hes⟩)
  · exact run_of_busy n hbusy hhost
  · exact ⟨_, step_of_settled hin rfl, rfl, rfl⟩
  · obtain ⟨t, ht⟩ := exists_exec i s
    rcases format_cmd_iff.1 hformat with hi | rfl | rfl
    · exact ⟨t, ht, ended_of_transactional hi hw ht⟩
    · exact absurd rfl hopen
    · exact absurd rfl hxmit

end Sys2Proof.Machine
end

section
/-! SUPPORT. The T=1 half of the engine reads and writes neither the BER-TLV half nor the events to come (00_scope R2):
each of its operations comes to the same with both replaced before or after it. -/

namespace Sys2Proof.Machine

/-- `s` with the BER-TLV half of `u` and the events `es`. -/
def State.swapTlv (s u : State) (es : List Input) : State := { s.withTlvOf u with inputs := es }

section
variable (s u : State) (es : List Input)

@[simp] theorem State.swapTlv_cfg : (s.swapTlv u es).cfg = s.cfg := rfl
@[simp] theorem State.swapTlv_a0 : (s.swapTlv u es).a0 = s.a0 := rfl
@[simp] theorem State.swapTlv_edcMode : (s.swapTlv u es).edcMode = s.edcMode := rfl
@[simp] theorem State.swapTlv_haddr : (s.swapTlv u es).haddr = s.haddr := rfl
@[simp] theorem State.swapTlv_sseq : (s.swapTlv u es).sseq = s.sseq := rfl
@[simp] theorem State.swapTlv_dbData : (s.swapTlv u es).dbData = s.dbData := rfl
@[simp] theorem State.swapTlv_fbFrame : (s.swapTlv u es).fbFrame = s.fbFrame := rfl

/-- Both sides of a test. -/
theorem State.ite_swapTlv {c : Prop} {_ : Decidable c} {t₁ t₂ v₁ v₂ : State} (h₁ : t₁ = v₁.swapTlv u es)
    (h₂ : t₂ = v₂.swapTlv u es) : (if c then t₁ else t₂) = (if c then v₁ else v₂).swapTlv u es := by
  split_ifs
  · exact h₁
  · exact h₂

/-! ### The engine -/

theorem State.tryOpen_swapTlv (last : BitVec 8) (left : Nat) :
    (s.swapTlv u es).tryOpen left last = (s.tryOpen left last).swapTlv u es := by
  induction left generalizing last with
  | zero => rfl
  | succ left ih => exact State.ite_swapTlv u es (ih _) rfl

theorem State.failJob_swapTlv (j : Job) (e : Err) :
    (s.swapTlv u es).failJob j e = (s.failJob j e).swapTlv u es := by
  cases j with
  | xmit => rfl
  | opening a ph => exact s.tryOpen_swapTlv u es _ _

theorem State.transmit_swapTlv (j : Job) (r : Nat) (out : List Byte) :
    (s.swapTlv u es).transmit j r out = (s.transmit j r out).swapTlv u es :=
  State.ite_swapTlv u es (s.failJob_swapTlv u es j _) rfl

theorem State.storeSlot_swapTlv (p : BitVec 1) (raw : List Byte) :
    (s.swapTlv u es).storeSlot p raw = (s.storeSlot p raw).swapTlv u es :=
  State.ite_swapTlv u es rfl rfl

theorem State.returnBlock_swapTlv (j : Job) (b : Block) :
    (s.swapTlv u es).returnBlock j b = (s.returnBlock j b).swapTlv u es := by
  match j with
  | .xmit =>
    show State.endXmit _ b = (s.endXmit b).swapTlv u es
    rw [State.endXmit_eq, State.endXmit_eq]
    rfl
  | .opening a .resynch =>
    exact State.ite_swapTlv u es
      (State.transmit_swapTlv { s with sseq := 0#1, rseq := 0#1 } u es _ _ _) (s.failJob_swapTlv u es _ _)
  | .opening a .ifs => exact State.ite_swapTlv u es rfl (s.failJob_swapTlv u es _ _)

/-! ### The arms -/

theorem State.armUnknown_swapTlv (w : Work) :
    (s.swapTlv u es).armUnknown w = (s.armUnknown w).swapTlv u es := by
  simp only [State.armUnknown, State.swapTlv_cfg]
  cases s.cfg.unknownReply with
  | retrySame => exact s.transmit_swapTlv u es _ _ _
  | fail => exact s.failJob_swapTlv u es _ _

theorem State.armEdc_swapTlv (w : Work) : (s.swapTlv u es).armEdc w = (s.armEdc w).swapTlv u es := by
  have hstored := State.storeSlot_swapTlv { s with sseq := s.sseq ^^^ 1#1 } u es (s.sseq ^^^ 1#1) (s.edcFrame w)
  exact (congrArg (fun t => State.retransmit t w (s.edcFrame w)) hstored).trans (State.transmit_swapTlv _ u es _ _ _)

theorem State.armR_swapTlv (w : Work) (nr : BitVec 1) :
    (s.swapTlv u es).armR w nr = (s.armR w nr).swapTlv u es :=
  State.ite_swapTlv u es (s.failJob_swapTlv u es _ _) (s.transmit_swapTlv u es _ _ _)

theorem State.armWtx_swapTlv (w : Work) (data : List Byte) :
    (s.swapTlv u es).armWtx w data = (s.armWtx w data).swapTlv u es := by
  simp only [State.armWtx, State.swapTlv_haddr, State.swapTlv_cfg]
  split
  · exact s.transmit_swapTlv u es _ _ _
  · exact s.failJob_swapTlv u es _ _

theorem State.armResynch_swapTlv (w : Work) (b : Block) :
    (s.swapTlv u es).armResynch w b = (s.armResynch w b).swapTlv u es :=
  State.ite_swapTlv u es (s.returnBlock_swapTlv u es _ _) (s.armUnknown_swapTlv u es _)

theorem State.armIfs_swapTlv (w : Work) (b : Block) :
    (s.swapTlv u es).armIfs w b = (s.armIfs w b).swapTlv u es :=
  State.ite_swapTlv u es (s.returnBlock_swapTlv u es _ _) (s.armUnknown_swapTlv u es _)

/-- Each octet runs its arm on the command that waits, or finds none. -/
theorem State.reply_swapTlv (i : Instr) : (s.swapTlv u es).reply i = (s.reply i).swapTlv u es := by
  cases hw : s.work with
  | none => rw [State.reply_idle hw, State.reply_idle (s := s.swapTlv u es) hw]
  | some w =>
    cases i
    all_goals simp only [State.reply, State.whileWaiting_some hw, State.whileWaiting_some (s := s.swapTlv u es) hw]
    case pcbI => exact State.returnBlock_swapTlv { s with rseq := s.rseq ^^^ 1#1 } u es _ _
    case pcbR => exact s.armR_swapTlv u es _ _
    case pcbWtxRequest => exact s.armWtx_swapTlv u es _ _
    case pcbResynchResponse => exact s.armResynch_swapTlv u es _ _
    case pcbIfsResponse => exact s.armIfs_swapTlv u es _ _
    case pcbResynchRequest | pcbIfsRequest | pcbAbortRequest | pcbAbortResponse | pcbWtxResponse
      | pcbVppStateErrorResponse => exact s.armUnknown_swapTlv u es _

theorem State.answer_swapTlv (a : Answer) : (s.swapTlv u es).answer a = (s.answer a).swapTlv u es := by
  cases hw : s.work with
  | none => rw [State.answer_idle hw, State.answer_idle (s := s.swapTlv u es) hw]
  | some w =>
    have hwork : (s.swapTlv u es).work = some w := hw
    cases a with
    | fail =>
      rw [State.answer_fail hw, State.answer_fail hwork]
      exact s.failJob_swapTlv u es _ _
    | ok g =>
      let waiting : State := { s with work := some { w with rx := g.take fbCap } }
      cases ht : t1Parse 0#1 (g.take fbCap) with
      | error e =>
        rcases t1Parse_error ht with rfl | rfl
        · rw [State.answer_lengthMismatch hw ht, State.answer_lengthMismatch hwork ht]
          exact waiting.failJob_swapTlv u es _ _
        · rw [State.answer_edcError hw ht, State.answer_edcError hwork ht]
          exact waiting.armEdc_swapTlv u es _
      | ok b =>
        cases hd : decodePcb s.cfg.scode b.pcb with
        | error e =>
          rw [State.answer_undecoded hw ht hd, State.answer_undecoded hwork ht hd]
          exact waiting.armUnknown_swapTlv u es _
        | ok i =>
          rw [State.answer_block hw ht hd, State.answer_block hwork ht hd]
          exact waiting.reply_swapTlv u es i

end

end Sys2Proof.Machine
end

section
/-! SUPPORT. The commands of either half leave the other half and the events to come alone (00_scope R2), so that a
command served with its answers comes to the same as one answer at a time (20_memory R72, log entry 1). -/

namespace Sys2Proof.Machine

theorem tlvHalf_subset {i : Instr} (hi : i ∈ tlvHalf) : i ∈ transactional :=
  (by decide : ∀ i ∈ tlvHalf, i ∈ transactional) i hi

/-- The commands by their half: the system commands, the BER-TLV half, the block unit and the protocol engine. -/
theorem transactional_cases {i : Instr} (hi : i ∈ transactional) :
    i = .nop ∨ i = .srst ∨ i ∈ tlvHalf ∨ i ∈ t1Half ∧ i ∈ transactional :=
  (by decide : ∀ i ∈ transactional, i = .nop ∨ i = .srst ∨ i ∈ tlvHalf ∨ i ∈ t1Half ∧ i ∈ transactional) i hi

/-! ### The T=1 half -/

section
variable (s u : State) (es : List Input)

theorem State.build_swapTlv (pcb : Byte) (data : List Byte) :
    (s.swapTlv u es).build pcb data = (s.build pcb data).map fun t => t.swapTlv u es := by
  simp only [State.build, State.swapTlv_edcMode, State.swapTlv_a0]
  cases mkFrame s.edcMode (addrSrc s.a0) (addrDst s.a0) pcb data <;> rfl

/-- Both sides of a test. -/
theorem map_ite {α β : Type} {f : α → β} {c : Prop} {_ : Decidable c} {r₁ r₂ : Except Err β} {v₁ v₂ : Except Err α}
    (h₁ : r₁ = v₁.map f) (h₂ : r₂ = v₂.map f) : (if c then r₁ else r₂) = (if c then v₁ else v₂).map f := by
  split_ifs
  · exact h₁
  · exact h₂

/-- A test that refuses on one side. -/
theorem map_ite_error {α β : Type} {f : α → β} {c : Prop} {_ : Decidable c} {e : Err} {r : Except Err β}
    {v : Except Err α} (h : r = v.map f) : (if c then .error e else r) = (if c then Except.error e else v).map f :=
  map_ite rfl h

/-- The bodies of the block unit. -/
theorem bodyOf_swapTlv {i : Instr} (hi : i ∈ t1Half) (htrans : i ∈ transactional) :
    bodyOf i (s.swapTlv u es) = (bodyOf i s).map fun t => t.swapTlv u es := by
  cases i
  case t1mki => exact map_ite_error (map_ite_error (s.build_swapTlv u es _ _))
  case t1mkr => exact map_ite_error (map_ite_error (s.build_swapTlv u es _ _))
  case t1mks => exact map_ite_error (map_ite_error (map_ite_error (s.build_swapTlv u es _ _)))
  case t1edc => exact map_ite_error rfl
  case t1parse =>
    simp only [bodyOf, t1parseBody, State.swapTlv_edcMode, State.swapTlv_fbFrame]
    cases t1Parse s.edcMode s.fbFrame <;> rfl
  case t1open | t1xmit => simp [transactional] at htrans
  all_goals simp [t1Half] at hi

theorem State.complete_swapTlv (r : Except Err State) :
    (s.swapTlv u es).complete (r.map fun t => t.swapTlv u es) = (s.complete r).swapTlv u es := by
  cases r <;> rfl

theorem State.beginOpen_swapTlv : (s.swapTlv u es).beginOpen = s.beginOpen.swapTlv u es :=
  State.ite_swapTlv u es rfl (s.tryOpen_swapTlv u es _ _)

theorem State.beginXmit_swapTlv : (s.swapTlv u es).beginXmit = s.beginXmit.swapTlv u es := by
  refine State.ite_swapTlv u es rfl ?_
  simp only [State.swapTlv_edcMode, State.swapTlv_haddr, State.swapTlv_a0, State.swapTlv_sseq, State.swapTlv_dbData]
  cases mkFrame s.edcMode s.haddr (addrSrc s.a0) (pcbI s.sseq) s.dbData with
  | error e => rfl
  | ok out =>
    exact (congrArg (fun t => State.transmit t .xmit s.cfg.retryBudget out) (s.storeSlot_swapTlv u es s.sseq out)).trans
      (State.transmit_swapTlv _ u es _ _ _)

end

/-- An operation that commutes with the events to come leaves them. -/
theorem inputs_of_swapTlv {s t : State} (h : t = t.swapTlv s s.inputs) : t.inputs = s.inputs := by
  rw [h]
  rfl

theorem State.swapTlv_of_inputs {t : State} {es : List Input} (u : State) (h : t.inputs = es) :
    t.swapTlv u es = t.withTlvOf u := by
  subst h
  rfl

/-- It also commutes with the replacement of the BER-TLV half alone. -/
theorem withTlvOf_of_swapTlv {f : State → State} {s : State}
    (hf : ∀ u es, f (s.swapTlv u es) = (f s).swapTlv u es) (u : State) : f (s.withTlvOf u) = (f s).withTlvOf u := by
  have hself : f s = (f s).swapTlv s s.inputs := hf s s.inputs
  exact (hf u s.inputs).trans (State.swapTlv_of_inputs u (inputs_of_swapTlv hself))

/-- Serving takes the answers from the events, and the BER-TLV half stays. -/
theorem State.serve_withTlvOf (u : State) : ∀ (es : List Input) (s : State),
    (s.withTlvOf u).serve es = (s.serve es).withTlvOf u
  | [], s => by rw [State.serve_nil, State.serve_nil]
  | .host a :: es, s => by rw [State.serve_host, State.serve_host]
  | .hardReset :: es, s => by rw [State.serve_hardReset, State.serve_hardReset]
  | .line a :: es, s => by
    cases hw : s.work with
    | none => rw [State.serve_idle hw, State.serve_idle (s := s.withTlvOf u) hw]
    | some w =>
      have hanswer := withTlvOf_of_swapTlv (f := fun t => t.answer a)
        (fun u es' => State.answer_swapTlv { s with inputs := es } u es' a) u
      rw [State.serve_waiting hw, State.serve_waiting (s := s.withTlvOf u) hw, ← State.serve_withTlvOf u es]
      exact congrArg (State.serve es) hanswer

/-- No command of the T=1 half and no octet received reads or writes the BER-TLV half. -/
theorem exec_withTlvOf {i : Instr} (hi : i ∈ t1Half ∨ i.format = .pcb) {s t : State} (u : State)
    (h : exec i s = .next t) : exec i (s.withTlvOf u) = .next (t.withTlvOf u) := by
  rcases hi with hi | hi
  · by_cases htrans : i ∈ transactional
    · rw [exec_transactional htrans] at h ⊢
      cases h
      refine congrArg _ (withTlvOf_of_swapTlv (f := fun s => s.complete (bodyOf i s)) (fun u es => ?_) u)
      rw [bodyOf_swapTlv s u es hi htrans, s.complete_swapTlv u es]
    · rcases (by decide : ∀ i ∈ t1Half, i ∈ transactional ∨ i = .t1open ∨ i = .t1xmit) i hi with hc | rfl | rfl
      · exact absurd hc htrans
      · cases h
        rw [exec_t1open, withTlvOf_of_swapTlv s.beginOpen_swapTlv]
        exact congrArg _ (State.serve_withTlvOf u s.inputs s.beginOpen)
      · cases h
        rw [exec_t1xmit, withTlvOf_of_swapTlv s.beginXmit_swapTlv]
        exact congrArg _ (State.serve_withTlvOf u s.inputs s.beginXmit)
  · rw [exec_of_pcb hi] at h ⊢
    cases h
    exact congrArg _ (withTlvOf_of_swapTlv (f := fun s => s.reply i) (fun u es => s.reply_swapTlv u es i) u)

/-! ### The BER-TLV half -/

/-- `s` with the T=1 half of `u` and the events `es`. -/
def State.swapT1 (s u : State) (es : List Input) : State := { s.withT1Of u with inputs := es }

section
variable (s u : State) (es : List Input)

@[simp] theorem State.swapT1_a0 : (s.swapT1 u es).a0 = s.a0 := rfl
@[simp] theorem State.swapT1_a1 : (s.swapT1 u es).a1 = s.a1 := rfl
@[simp] theorem State.swapT1_a2 : (s.swapT1 u es).a2 = s.a2 := rfl
@[simp] theorem State.swapT1_cfg : (s.swapT1 u es).cfg = s.cfg := rfl
@[simp] theorem State.swapT1_tbFrom (o : Nat) : (s.swapT1 u es).tbFrom o = s.tbFrom o := rfl
@[simp] theorem State.swapT1_node (w : Word) : (s.swapT1 u es).node w = s.node w := rfl

theorem State.emit_swapT1 (bs : List Byte) :
    (s.swapT1 u es).emit bs = (s.emit bs).map fun t => t.swapT1 u es := map_ite_error rfl

theorem parseAtBody_swapT1 (o : Nat) :
    parseAtBody (s.swapT1 u es) o = (parseAtBody s o).map fun t => t.swapT1 u es := by
  simp only [parseAtBody, State.swapT1_cfg, State.swapT1_tbFrom]
  cases parseNode s.cfg.depthMax (s.tbFrom o) with
  | error e => rfl
  | ok r =>
    have hcommit : (s.swapT1 u es).commit r.1 = (s.commit r.1).map fun q => (q.1.swapT1 u es, q.2) :=
      map_ite_error rfl
    simp only [hcommit]
    cases s.commit r.1 <;> rfl

theorem bodyOf_swapT1 {i : Instr} (hi : i ∈ tlvHalf) :
    bodyOf i (s.swapT1 u es) = (bodyOf i s).map fun t => t.swapT1 u es := by
  cases i
  case tagdec =>
    simp only [bodyOf, tagdecBody, State.swapT1_tbFrom, State.swapT1_a0]
    cases tagDecode (s.tbFrom s.a0.toNat) <;> rfl
  case tagenc => exact map_ite_error (s.emit_swapT1 u es _)
  case lendec =>
    simp only [bodyOf, lendecBody, State.swapT1_tbFrom, State.swapT1_a0]
    cases lenDecode (s.tbFrom s.a0.toNat) <;> rfl
  case lenenc => exact s.emit_swapT1 u es _
  case tlvparse => exact parseAtBody_swapT1 s u es _
  case tlvparseat => exact parseAtBody_swapT1 s u es _
  case tlvser =>
    simp only [bodyOf, tlvserBody, State.swapT1_node, State.swapT1_a0]
    cases s.node s.a0 with
    | error e => rfl
    | ok n => exact s.emit_swapT1 u es _
  case tlvfind =>
    simp only [bodyOf, tlvfindBody, State.swapT1_node, State.swapT1_a0, State.swapT1_a2]
    cases s.node s.a0 with
    | error e => rfl
    | ok n =>
      refine map_ite rfl ?_
      cases s.node s.a2 with
      | error e => rfl
      | ok after => exact map_ite rfl rfl
  case tlvappend =>
    simp only [bodyOf, tlvappendBody, State.swapT1_node, State.swapT1_a0, State.swapT1_a1]
    cases s.node s.a0 with
    | error e => rfl
    | ok p =>
      cases s.node s.a1 with
      | error e => rfl
      | ok c => exact map_ite_error (map_ite_error (map_ite_error (map_ite_error rfl)))
  case tlvnewp => exact map_ite_error (map_ite_error (map_ite_error rfl))
  case tlvnewc => exact map_ite_error (map_ite_error rfl)
  case tlvsetv =>
    simp only [bodyOf, tlvsetvBody, State.swapT1_node, State.swapT1_a0]
    cases s.node s.a0 with
    | error e => rfl
    | ok n => exact map_ite_error (map_ite_error (map_ite_error rfl))
  case tlvget =>
    simp only [bodyOf, tlvgetBody, State.swapT1_node, State.swapT1_a0]
    cases s.node s.a0 <;> rfl
  case tlvgetv =>
    simp only [bodyOf, tlvgetvBody, State.swapT1_node, State.swapT1_a0]
    cases s.node s.a0 with
    | error e => rfl
    | ok n => exact map_ite_error (s.emit_swapT1 u es _)
  case tlvclr => rfl
  all_goals simp [tlvHalf] at hi

theorem State.complete_swapT1 (r : Except Err State) :
    (s.swapT1 u es).complete (r.map fun t => t.swapT1 u es) = (s.complete r).swapT1 u es := by
  cases r <;> rfl

theorem complete_bodyOf_swapT1 {i : Instr} (hi : i ∈ tlvHalf) :
    (s.swapT1 u es).complete (bodyOf i (s.swapT1 u es)) = (s.complete (bodyOf i s)).swapT1 u es := by
  rw [bodyOf_swapT1 s u es hi, s.complete_swapT1 u es]

end

theorem State.swapT1_of_inputs {t : State} {es : List Input} (u : State) (h : t.inputs = es) :
    t.swapT1 u es = t.withT1Of u := by
  subst h
  rfl

/-- No command of the BER-TLV half reads or writes the T=1 half. -/
theorem exec_withT1Of {i : Instr} (hi : i ∈ tlvHalf) {s t : State} (u : State) (h : exec i s = .next t) :
    exec i (s.withT1Of u) = .next (t.withT1Of u) := by
  rw [exec_transactional (tlvHalf_subset hi)] at h ⊢
  cases h
  have hself : s.complete (bodyOf i s) = (s.complete (bodyOf i s)).swapT1 s s.inputs :=
    complete_bodyOf_swapT1 s s s.inputs hi
  have hinputs : (s.complete (bodyOf i s)).inputs = s.inputs := by
    rw [hself]
    rfl
  exact congrArg _ ((complete_bodyOf_swapT1 s u s.inputs hi).trans (State.swapT1_of_inputs u hinputs))

/-- Settles O49: a half that is replaced by itself is the half that is kept. -/
theorem halvesShareNoState : Obligations.HalvesShareNoState := by
  unfold Obligations.HalvesShareNoState
  refine ⟨fun i s t u hi h => ⟨exec_withT1Of hi u h, ?_⟩, fun i s t u hi h => ⟨exec_withTlvOf hi u h, ?_⟩⟩
  · exact Host.Outcome.next.inj (h.symm.trans (exec_withT1Of hi s h))
  · exact Host.Outcome.next.inj (h.symm.trans (exec_withTlvOf hi s h))

end Sys2Proof.Machine
end

section
/-! SUPPORT. A command served with its answers in one step, and the command then one answer at a time (00_scope R8,
20_memory R72, log entry 1). -/

namespace Sys2Proof.Machine

/-! ### The events to come -/

/-- With no event in store. -/
def State.drained (s : State) : State := { s with inputs := [] }

/-- An operation that commutes with the other half and the events commutes with the events alone. -/
theorem drained_of_swapTlv {f : State → State} {s : State} (hf : ∀ u es, f (s.swapTlv u es) = (f s).swapTlv u es) :
    f s.drained = (f s).drained :=
  (hf s []).trans (congrArg State.drained (show f s = (f s).swapTlv s s.inputs from hf s s.inputs)).symm

theorem drained_of_swapT1 {f : State → State} {s : State} (hf : ∀ u es, f (s.swapT1 u es) = (f s).swapT1 u es) :
    f s.drained = (f s).drained :=
  (hf s []).trans (congrArg State.drained (show f s = (f s).swapT1 s s.inputs from hf s s.inputs)).symm

/-- A transactional command comes to the same with and without the events to come. -/
theorem complete_bodyOf_drained {i : Instr} (hi : i ∈ transactional) (s : State) :
    s.drained.complete (bodyOf i s.drained) = (s.complete (bodyOf i s)).drained := by
  rcases transactional_cases hi with rfl | rfl | htlv | ⟨ht1, htrans⟩
  · rfl
  · rfl
  · exact drained_of_swapT1 (f := fun s => s.complete (bodyOf i s)) fun u es => complete_bodyOf_swapT1 s u es htlv
  · exact drained_of_swapTlv (f := fun s => s.complete (bodyOf i s)) fun u es => by
      rw [bodyOf_swapTlv s u es ht1 htrans, s.complete_swapTlv u es]

/-- Any command: it serves the events it finds, after a beginning that they do not change. -/
theorem exec_serves {i : Instr} (hi : i.format = .cmd) {s : State} (hw : s.work = none) :
    ∃ t : State, exec i s = .next (t.serve s.inputs) ∧ exec i s.drained = .next t.drained := by
  rcases format_cmd_iff.1 hi with hi | rfl | rfl
  · have hexec := exec_transactional hi s
    obtain ⟨hidle, -⟩ := ended_of_transactional hi hw hexec
    refine ⟨s.complete (bodyOf i s), ?_, ?_⟩
    · rw [hexec, State.serve_idle hidle]
    · rw [exec_transactional hi, complete_bodyOf_drained hi]
  · refine ⟨s.beginOpen, exec_t1open s, ?_⟩
    rw [← drained_of_swapTlv s.beginOpen_swapTlv]
    exact (exec_t1open s.drained).trans (congrArg _ (State.serve_nil _))
  · refine ⟨s.beginXmit, exec_t1xmit s, ?_⟩
    rw [← drained_of_swapTlv s.beginXmit_swapTlv]
    exact (exec_t1xmit s.drained).trans (congrArg _ (State.serve_nil _))

/-! ### One answer at a time -/

theorem feed_cons {e : Input} {es : List Input} {s t : State} (h : step { s with inputs := [e] } = .next t) :
    feed (e :: es) s = feed es t := by
  simp only [feed, h]

/-- The answers one at a time come to what serving them in one step does. -/
theorem feed_answers : ∀ (as : List Answer) (s : State),
    feed (as.map .line) s.drained = .next (s.serve (as.map .line)).drained
  | [], s => by
    rw [List.map_nil, State.serve_nil]
    rfl
  | a :: as, s => by
    obtain ⟨t, ht⟩ : ∃ t, t = ({ s with inputs := as.map .line } : State).answer a := ⟨_, rfl⟩
    have hstep : step { s.drained with inputs := [.line a] } = .next t.drained := by
      rw [ht, ← drained_of_swapTlv (f := fun s => s.answer a) fun u es => State.answer_swapTlv _ u es a]
      exact step_line rfl
    rw [List.map_cons, feed_cons hstep, feed_answers as t]
    cases hw : s.work with
    | none =>
      have hsame : t = { s with inputs := as.map .line } :=
        ht.trans (State.answer_idle (s := { s with inputs := as.map .line }) hw a)
      rw [State.serve_idle hw, State.serve_idle (s := t) (hsame ▸ hw), hsame]
      rfl
    | some w => rw [ht, State.serve_waiting hw]

/-- A write of CMD to an idle engine: the answers in store are served after a beginning that they do not change. -/
theorem step_serves {s : State} {v : Word} (hidle : s.busy = false) (hw : s.work = none) (es : List Input) :
    ∃ t : State, step { s with inputs := .host (.writeReg 0 v) :: es } = .next (t.serve es) ∧
      step { s with inputs := [.host (.writeReg 0 v)] } = .next t.drained := by
  have hone : ∀ es, step { s with inputs := .host (.writeReg 0 v) :: es } =
      (({ s with inputs := es } : State).arrive (.host (.writeReg 0 v))).outcome := fun _ => step_cons rfl
  have harrive : ∀ es, ({ s with inputs := es } : State).busy = false := fun _ => hidle
  rw [hone, hone]
  cases hdec : decodeCommand (v.setWidth 8) with
  | ok i =>
    rw [State.arrive_command (harrive es) hdec, State.arrive_command (harrive []) hdec]
    exact exec_serves (s := ({ s with inputs := es } : State).start (v.setWidth 8)) (format_of_decodeCommand hdec) hw
  | error e =>
    rw [State.arrive_illegalCommand (harrive es) hdec, State.arrive_illegalCommand (harrive []) hdec]
    exact ⟨(({ s with inputs := es } : State).start (v.setWidth 8)).raise .illegalCommand,
      congrArg _ (State.serve_idle (by exact hw) es).symm, rfl⟩

/-- Settles O59: the command begins alike, and its answers one at a time are its answers served. -/
theorem answersOneByOne : Obligations.AnswersOneByOne := by
  unfold Obligations.AnswersOneByOne
  intro s v as hidle hw
  obtain ⟨t, hserved, hdrained⟩ := step_serves hidle hw (as.map .line)
  exact ⟨_, hserved, (feed_cons hdrained).trans (feed_answers as t)⟩

end Sys2Proof.Machine
end
